-- ==== Sys2Proof/Word.lean ====
section
/-! DEFINITION. The word types of the machine (spec 00_scope.md R6, R8). All values are unsigned. -/

namespace Sys2Proof

/-- One memory cell, one general register, one timer: 8 bits (R6: CELL_WIDTH, REG_WIDTH, TIMER_WIDTH). -/
abbrev Byte := BitVec 8

/-- An instruction word, the program counter, the address register I, a return address: 16 bits (R6). -/
abbrev Word := BitVec 16

/-- The address field `nnn` of format A: 12 bits (R71). -/
abbrev Addr12 := BitVec 12

/-- The number of a general register, 0 to 15 (R21). There is no reserved number and no hardwired register. -/
abbrev RegNum := Fin 16

/-- The number of a key, held as the set of keys that are down: bit k is key k (R32, R39). -/
abbrev KeySet := BitVec 16

/-- VF, register 15, the register that doubles as the flag (R22). -/
abbrev VF : RegNum := 15

/-- V0, the implied index register of `Bnnn` (R21, R117). -/
abbrev V0 : RegNum := 0

end Sys2Proof
end

