-- ==== Sys2Proof/Syntax.lean ====
section
/-! DEFINITION. The instructions: one constructor per row of spec/opcode_table.json, in the order of the opcode map
(spec 30_encoding.md R75). A constructor carries every operand field its encoding has, the ignored y of the two shifts
included, so that no bit of a word is lost. -/

namespace Sys2Proof

/-- The 34 instructions of the opcode map (R2, R75). `x`, `y` are register numbers, `kk` an 8-bit and `nnn` a 12-bit
immediate, `n` the number of sprite rows (R71, R73). -/
inductive Instr where
  /-- `00E0` CLS: clear the framebuffer (R174). -/
  | cls
  /-- `00EE` RET: return from subroutine (R110). -/
  | ret
  /-- `1nnn` JP nnn (R111). -/
  | jp (nnn : Addr12)
  /-- `2nnn` CALL nnn (R112). -/
  | call (nnn : Addr12)
  /-- `3xkk` SE Vx, kk (R113). -/
  | seImm (x : RegNum) (kk : Byte)
  /-- `4xkk` SNE Vx, kk (R114). -/
  | sneImm (x : RegNum) (kk : Byte)
  /-- `5xy0` SE Vx, Vy (R115). -/
  | seReg (x y : RegNum)
  /-- `6xkk` LD Vx, kk (R131). -/
  | ldImm (x : RegNum) (kk : Byte)
  /-- `7xkk` ADD Vx, kk (R132). -/
  | addImm (x : RegNum) (kk : Byte)
  /-- `8xy0` LD Vx, Vy (R133). -/
  | ldReg (x y : RegNum)
  /-- `8xy1` OR Vx, Vy (R134). -/
  | orReg (x y : RegNum)
  /-- `8xy2` AND Vx, Vy (R135). -/
  | andReg (x y : RegNum)
  /-- `8xy3` XOR Vx, Vy (R136). -/
  | xorReg (x y : RegNum)
  /-- `8xy4` ADD Vx, Vy (R137). -/
  | addReg (x y : RegNum)
  /-- `8xy5` SUB Vx, Vy (R138). -/
  | subReg (x y : RegNum)
  /-- `8xy6` SHR Vx; y is encoded and ignored (R139). -/
  | shr (x y : RegNum)
  /-- `8xy7` SUBN Vx, Vy (R140). -/
  | subnReg (x y : RegNum)
  /-- `8xyE` SHL Vx; y is encoded and ignored (R141). -/
  | shl (x y : RegNum)
  /-- `9xy0` SNE Vx, Vy (R116). -/
  | sneReg (x y : RegNum)
  /-- `Annn` LD I, nnn (R150). -/
  | ldI (nnn : Addr12)
  /-- `Bnnn` JP V0, nnn (R117). -/
  | jpV0 (nnn : Addr12)
  /-- `Cxkk` RND Vx, kk (R142). -/
  | rnd (x : RegNum) (kk : Byte)
  /-- `Dxyn` DRW Vx, Vy, n (R175). -/
  | drw (x y : RegNum) (n : Nat)
  /-- `Ex9E` SKP Vx (R193). -/
  | skp (x : RegNum)
  /-- `ExA1` SKNP Vx (R194). -/
  | sknp (x : RegNum)
  /-- `Fx07` LD Vx, DT (R190). -/
  | ldVxDt (x : RegNum)
  /-- `Fx0A` LD Vx, K: wait for a key press (R195). -/
  | ldVxKey (x : RegNum)
  /-- `Fx15` LD DT, Vx (R191). -/
  | ldDtVx (x : RegNum)
  /-- `Fx18` LD ST, Vx (R192). -/
  | ldStVx (x : RegNum)
  /-- `Fx1E` ADD I, Vx (R151). -/
  | addIVx (x : RegNum)
  /-- `Fx29` LD F, Vx: address of a font glyph (R152). -/
  | ldFVx (x : RegNum)
  /-- `Fx33` LD B, Vx: store the decimal digits (R153). -/
  | ldBVx (x : RegNum)
  /-- `Fx55` LD [I], Vx: store V0 to Vx (R154). -/
  | storeRegs (x : RegNum)
  /-- `Fx65` LD Vx, [I]: load V0 to Vx (R155). -/
  | loadRegs (x : RegNum)
deriving DecidableEq, Repr

end Sys2Proof
end

