-- ==== Sys2Proof/Config.lean ====
section
/-! DEFINITION. What one realisation of the core fixes (spec 00_scope.md R6, R7) and the free values: the answers of
the environment that nothing in the spec constrains. The parameters with a default in the spec are plain data, held in
State beside the registers and changed by no step, so that a statement about every state holds for every choice. -/

namespace Sys2Proof

/-- One glyph of the font: 5 sprite rows of one byte (R51, R241). -/
abbrev Glyph := Vector Byte 5

/-- The parameters a realisation fixes and no step changes (R7). -/
structure Config where
  /-- STACK_DEPTH: the greatest number of return addresses the stack holds; `none` is the spec's ∞ (R7, R27, D8). -/
  stackDepth : Option Nat
  /-- Glyphs 1 to F of FONT, the part of the font the source document leaves open (R241, D15). -/
  glyphs : Vector Glyph 15
deriving DecidableEq, Repr

/-- Glyph 0, the one glyph the source document fixes: `F0 90 90 90 F0` (R241). -/
def glyphZero : Glyph := #v[0xF0, 0x90, 0x90, 0x90, 0xF0]

/-- Glyphs 1 to F of the table of R241, the spec's default for FONT. PRESUMED (log entry 11): the spec marks these
75 bytes as general knowledge, not in its source. -/
def defaultGlyphs : Vector Glyph 15 :=
  #v[#v[0x20, 0x60, 0x20, 0x20, 0x70],
     #v[0xF0, 0x10, 0xF0, 0x80, 0xF0],
     #v[0xF0, 0x10, 0xF0, 0x10, 0xF0],
     #v[0x90, 0x90, 0xF0, 0x10, 0x10],
     #v[0xF0, 0x80, 0xF0, 0x10, 0xF0],
     #v[0xF0, 0x80, 0xF0, 0x90, 0xF0],
     #v[0xF0, 0x10, 0x20, 0x40, 0x40],
     #v[0xF0, 0x90, 0xF0, 0x90, 0xF0],
     #v[0xF0, 0x90, 0xF0, 0x10, 0xF0],
     #v[0xF0, 0x90, 0xF0, 0x90, 0x90],
     #v[0xE0, 0x90, 0xE0, 0x90, 0xE0],
     #v[0xF0, 0x80, 0x80, 0x80, 0xF0],
     #v[0xE0, 0x90, 0x90, 0x90, 0xE0],
     #v[0xF0, 0x80, 0xF0, 0x80, 0xF0],
     #v[0xF0, 0x80, 0xF0, 0x80, 0x80]]

/-- The spec's defaults: an unbounded stack (D8) and the customary font (D15). -/
def Config.standard : Config := { stackDepth := none, glyphs := defaultGlyphs }

/-- The 80 bytes `LoadFont` writes from address 0: glyph d at 5·d (R51, R241). -/
def Config.font (c : Config) : List Byte :=
  glyphZero.toList ++ c.glyphs.toList.flatMap Vector.toList

/-- FREE VALUE (log entry 3): the byte the random source answers to the n-th draw for which the environment has queued
no answer. The spec gives no law for it (R38, R142, D22). -/
opaque Config.freeByte : Nat → Byte

/-- FREE VALUE (log entry 3): the keys the Input Source reports down at the n-th draw for which the environment has
queued no answer. The spec gives no law for it (R38, R196, D21). -/
opaque Config.freeKeys : Nat → KeySet

/-- FREE VALUE (log entry 18): TONE_HZ, the frequency handed to the Tone Source; the spec gives no number (R7, R226,
D28). -/
opaque Config.toneHz : Nat

end Sys2Proof
end

