-- ==== Sys2Proof/Machine/State.lean ====
section
/-! DEFINITION. The state of the core as plain data: the tuple of spec 10_state.md R20, the parameters of R7, and what
the environment (the driver, the Input Source, the random source) has handed over or been handed back (R5, R38, R255). -/

namespace Sys2Proof.Machine

/-- Memory: the cells that differ from 0, by address. An address that is not listed reads as 0, the reset value of
every cell (R33, R41). The canonical form is `Memory.wf`. -/
abbrev Memory := List Host.Cell

/-- The framebuffer: 32 rows, row 0 at the top, of 64 cells, column 0 at the left; true is ON (R34, D26). -/
abbrev Framebuffer := Vector (Vector Bool 64) 32

/-- The fatal causes (R30, R210). `LoadError` is the answer of an operation and no cause of a running machine (R211),
`UnknownOpcode` is a report and no fault (R213). -/
inductive Cause where
  /-- `00EE` with an empty stack (R212). -/
  | stackUnderflow
  /-- An access above 4095; `addr` is the lowest such address of the access (R214). -/
  | addressOutOfRange (addr : Nat)
  /-- `2nnn` with a full stack of finite depth (R215). -/
  | stackOverflow
deriving DecidableEq, Repr

/-- MODE, the run state (R30). -/
inductive Mode where
  | running
  | waitingForKey
  | faulted (cause : Cause)
deriving DecidableEq, Repr

/-- One entry of REPORTS: an unrecognized word and the address it was fetched from (R37). -/
structure Report where
  addr : Word
  word : Word
deriving DecidableEq, Repr

/-- An operation the driver issues (R5, R255). -/
inductive DriverOp where
  /-- `Reset` (R240). -/
  | reset
  /-- `LoadFont` (R241). -/
  | loadFont
  /-- `Load(program)` (R242). -/
  | load (program : List Byte)
  /-- `Cycle(ipf)` (R94); ipf is any natural number and may differ from call to call (D29). -/
  | cycle (ipf : Nat)
deriving DecidableEq, Repr

/-- What an operation hands back to the driver (R255). -/
inductive Reply where
  | ok
  /-- `Load` of a program of `length` bytes, too long for memory (R211). -/
  | loadError (length : Nat)
  /-- The fatal cause that ended a cycle (R101), or that was held when it began (R95, R255). -/
  | fatal (cause : Cause)
deriving DecidableEq, Repr

/-- Where the machine stands between two steps: between operations, or inside the instruction batch of a cycle with
`remaining` instructions of its ipf not yet taken (R94, R97). -/
inductive Phase where
  | idle
  | batch (remaining : Nat)
deriving DecidableEq, Repr

/-- The environment's side of the interface: MODEL's OWN fields, no state of the core (R20, R38; log entries 2, 3, 4).
The lists are the answers and operations the environment has queued, oldest first; they are inputs of the machine. -/
structure Env where
  /-- Where the current operation stands. -/
  phase : Phase
  /-- The operations the driver has issued and the core has not begun. -/
  ops : List DriverOp
  /-- The key samples the Input Source will answer next; after them the answers are free values. -/
  keysIn : List KeySet
  /-- The bytes the random source will answer next; after them the answers are free values. -/
  bytesIn : List Byte
  /-- How many free values have been drawn: the index of the next one. -/
  draws : Nat
  /-- What the last completed operation handed back; `none` while none has or when it hands back nothing. -/
  reply : Option Reply
  /-- The snapshot the last present request carried to the Presentation (R36, R100). -/
  lastFrame : Option Framebuffer
deriving DecidableEq, Repr

/-- The whole state. The first fourteen fields are the tuple of R20. -/
structure State where
  /-- `mem`, 4096 cells of 8 bits (R33). -/
  mem : Memory
  /-- `V[0..15]` (R21). -/
  v : Vector Byte 16
  /-- `I`, the address register (R24). -/
  i : Word
  /-- `PC`: between steps the address of the next instruction, during an instruction that of the following one (R25). -/
  pc : Word
  /-- The call stack, top first (R27). -/
  stack : List Word
  /-- `DT`, the delay timer (R28). -/
  dt : Byte
  /-- `ST`, the sound timer (R29). -/
  st : Byte
  /-- `MODE` (R30). -/
  mode : Mode
  /-- `fb` (R34). -/
  fb : Framebuffer
  /-- `WAITREG`, the register a pending `Fx0A` will write (R31). -/
  waitReg : RegNum
  /-- `KEYPREV`, the key state at the most recent sample taken for the wait (R32). -/
  keyPrev : KeySet
  /-- `TONE`, the output latch (R35). -/
  tone : Bool
  /-- `PRESENTS`, the number of present requests (R36). -/
  presents : Nat
  /-- `REPORTS`, oldest first (R37). -/
  reports : List Report
  /-- The parameters of this realisation (R7). No step changes them. -/
  cfg : Config
  /-- The environment's side of the interface. -/
  env : Env
deriving DecidableEq, Repr

/-- Reasons for a step to stop outside the machine's own state. There is none: every fatal error of the spec is held
in the state as `Mode.faulted` (R219), every operation of the driver is answered (R255), and decoding is total (R74),
so no step of this machine ends in a fault of the interface. -/
inductive Fault
deriving DecidableEq, Repr

/-- Reasons for an instruction to have no meaning in the model. -/
inductive Refusal where
  /-- An instruction the model gives no meaning yet, by its mnemonic; raised only by an arm of `exec`. Safe: nothing
  can be proved of a run that meets it. No arm of `exec` raises it: all 34 instructions have their meaning. -/
  | notModelled (mnemonic : String)
deriving DecidableEq, Repr

/-- The answer of a step. -/
abbrev Outcome := Host.Outcome State Fault Refusal

/-- An environment that has queued nothing and stands between operations. -/
def Env.quiet : Env :=
  { phase := .idle, ops := [], keysIn := [], bytesIn := [], draws := 0, reply := none, lastFrame := none }

/-- The machine right after `Reset` (R41, R240): PC = 0x200 and MODE = Running are the source document's; every other
value of the core is the spec's decision D9 (log entry 1). No operation is pending. -/
def State.reset : State :=
  { mem := []
    v := Vector.replicate 16 0
    i := 0
    pc := 0x200
    stack := []
    dt := 0
    st := 0
    mode := .running
    fb := Vector.replicate 32 (Vector.replicate 64 false)
    waitReg := 0
    keyPrev := 0
    tone := false
    presents := 0
    reports := []
    cfg := Config.standard
    env := Env.quiet }

end Sys2Proof.Machine
end

