-- ==== Sys2Proof/Machine/Ops.lean ====
section
/-! DEFINITION. The named operations over registers, memory, stack, framebuffer, the environment's answers, and the
taking of a fatal error (spec 00_scope.md R10, R11; 10_state.md R27; 44_display.md R170 to R173; 45_timers_keys.md R196;
60_exceptions.md R213, R219). -/

namespace Sys2Proof.Machine

/-! ### One field at a time -/

def setMem (m : Memory) (s : State) : State := { s with mem := m }
def setI (a : Word) (s : State) : State := { s with i := a }
def setPc (a : Word) (s : State) : State := { s with pc := a }
def setStack (l : List Word) (s : State) : State := { s with stack := l }
def setDt (b : Byte) (s : State) : State := { s with dt := b }
def setSt (b : Byte) (s : State) : State := { s with st := b }
def setMode (m : Mode) (s : State) : State := { s with mode := m }
def setFb (f : Framebuffer) (s : State) : State := { s with fb := f }
def setWaitReg (x : RegNum) (s : State) : State := { s with waitReg := x }
def setKeyPrev (k : KeySet) (s : State) : State := { s with keyPrev := k }
def setTone (b : Bool) (s : State) : State := { s with tone := b }
def setPhase (p : Phase) (s : State) : State := { s with env := { s.env with phase := p } }
def setOps (l : List DriverOp) (s : State) : State := { s with env := { s.env with ops := l } }
def setReply (r : Option Reply) (s : State) : State := { s with env := { s.env with reply := r } }

/-! ### General registers (R21) -/

/-- `V[r]`. -/
def getV (s : State) (r : RegNum) : Byte := s.v[r]

/-- `V[r] <- b`. -/
def setV (r : RegNum) (b : Byte) (s : State) : State := { s with v := s.v.set r b }

/-! ### Memory (R11, R33, R50, R57) -/

/-- The number of cells (R6: MEM_SIZE). -/
def memSize : Nat := 4096

/-- The canonical form: addresses inside the space and strictly rising, no cell equal to what an unlisted address reads
as. Equal memories are then equal lists. -/
abbrev Memory.wf (m : Memory) : Prop :=
  m.Pairwise (fun p q => p.1 < q.1) ∧ ∀ c ∈ m, c.1 < memSize ∧ c.2 ≠ 0

/-- The byte at an address; an address that is not listed reads as 0. -/
def Memory.read : Memory → Nat → Byte
  | [], _ => 0
  | (k, b) :: rest, a => if k = a then b else Memory.read rest a

/-- List the cell `(a, b)` at its place. -/
def Memory.put (a : Nat) (b : Byte) : Memory → Memory
  | [] => [(a, b)]
  | (k, c) :: rest =>
    if a < k then (a, b) :: (k, c) :: rest
    else if a = k then (a, b) :: rest
    else (k, c) :: Memory.put a b rest

/-- Unlist an address. -/
def Memory.drop (a : Nat) (m : Memory) : Memory := m.filter (fun c => c.1 != a)

/-- `mem[a] <- b`, keeping the canonical form. -/
def Memory.write (a : Nat) (b : Byte) (m : Memory) : Memory :=
  if b = 0 then m.drop a else m.put a b

/-- Write bytes at ascending addresses from `a`. -/
def Memory.writeBytes (a : Nat) : List Byte → Memory → Memory
  | [], m => m
  | b :: bs, m => Memory.writeBytes (a + 1) bs (m.write a b)

/-- The `n` bytes from address `a`, ascending. -/
def Memory.readBytes (m : Memory) (a : Nat) : Nat → List Byte
  | 0 => []
  | n + 1 => m.read a :: m.readBytes (a + 1) n

/-- `mem[a]`: the model's read of one byte. -/
def readMem (s : State) (a : Nat) : Byte := s.mem.read a

/-- Write bytes from address `a`. -/
def storeBytes (a : Nat) (bs : List Byte) (s : State) : State := setMem (s.mem.writeBytes a bs) s

/-! ### Fatal errors: when, and taking one (R56, R214, R219) -/

/-- The range check of an access to `n` bytes from address `b`, made before any effect: the cause names the lowest
address of the range above 4095 (R56; natural-number sums, nothing wraps). -/
def rangeFault (b n : Nat) : Option Cause :=
  if 0 < n ∧ memSize < b + n then some (.addressOutOfRange (max b memSize)) else none

/-- `raise`: MODE becomes Faulted(cause), the step and the cycle end, and the cause is what the cycle hands back to the
driver (R101, R219). Applied to the state before the instruction's effects, so none of them is performed (R220). There
is no handler, no saved register and no return (R221). -/
def raise (c : Cause) (s : State) : State :=
  setReply (some (.fatal c)) (setPhase .idle (setMode (.faulted c) s))

/-- Complete an instruction that answers `t`, unless its check found a cause. -/
def guarded (check : Option Cause) (s t : State) : Outcome :=
  match check with
  | some c => .next (raise c s)
  | none => .next t

/-- `report`: append to the observability channel; no fault (R77, R213). -/
def report (a w : Word) (s : State) : State := { s with reports := s.reports ++ [{ addr := a, word := w }] }

/-! ### Program counter (R91, R118) -/

/-- `PC <- (PC + 2) mod 65536`. -/
def advancePc (s : State) : State := setPc (s.pc + 2) s

/-- A skip: jump over one 2-byte instruction when the condition holds. -/
def skipIf (c : Bool) (s : State) : State := if c then advancePc s else s

/-! ### Stack (R27) -/

/-- The stack holds STACK_DEPTH entries; never with the unbounded stack. -/
def stackFull (s : State) : Bool :=
  match s.cfg.stackDepth with
  | none => false
  | some d => decide (d ≤ s.stack.length)

/-- The check of `push`. -/
def pushFault (s : State) : Option Cause := if stackFull s then some .stackOverflow else none

/-- `push(v)` where the check passed. -/
def push (v : Word) (s : State) : State := setStack (v :: s.stack) s

/-- The check of `pop`. -/
def popFault (s : State) : Option Cause := if s.stack.isEmpty then some .stackUnderflow else none

/-- The top of the stack, read by `pop` where the check passed. -/
def stackTop (s : State) : Word := s.stack.headD 0

/-- The stack without its top. -/
def popped (s : State) : State := setStack s.stack.tail s

/-! ### The environment's answers (R38, R142, R196) -/

/-- `Draw8()`: the answer of the random source. -/
def drawnByte (s : State) : Byte :=
  match s.env.bytesIn with
  | b :: _ => b
  | [] => Config.freeByte s.env.draws

/-- The state once a byte has been drawn: one fresh value per draw. -/
def afterByteDraw (s : State) : State :=
  match s.env.bytesIn with
  | _ :: bs => { s with env := { s.env with bytesIn := bs } }
  | [] => { s with env := { s.env with draws := s.env.draws + 1 } }

/-- The keys down at this instant: one sample of the Input Source. -/
def sampledKeys (s : State) : KeySet :=
  match s.env.keysIn with
  | k :: _ => k
  | [] => Config.freeKeys s.env.draws

/-- The state once the keys have been sampled: no law relates two samples (D21). -/
def afterKeySample (s : State) : State :=
  match s.env.keysIn with
  | _ :: ks => { s with env := { s.env with keysIn := ks } }
  | [] => { s with env := { s.env with draws := s.env.draws + 1 } }

/-- `KeyPressed(k)` (R196): a key above 15 does not exist and reads "not pressed" (D17). -/
def keyPressed (k : Nat) (s : State) : Bool := decide (k < 16) && (sampledKeys s).getLsbD k

/-- The state after the query: a key that does not exist is not asked for. -/
def afterKeyQuery (k : Nat) (s : State) : State := if k < 16 then afterKeySample s else s

/-! ### Framebuffer (R62, R170 to R173) -/

/-- The cell in column `x` of row `y`. -/
def pixel (fb : Framebuffer) (x : Fin 64) (y : Fin 32) : Bool := fb[y][x]

/-- `TogglePixel(px, py)`: coordinates wrap, the cell flips; the answer is true when an ON cell went OFF (R170). -/
def togglePixel (px py : Nat) (fb : Framebuffer) : Framebuffer × Bool :=
  let x := Fin.ofNat 64 px
  let y := Fin.ofNat 32 py
  (fb.set y (fb[y].set x (!pixel fb x y)), pixel fb x y)

/-- `ClearFB()` (R171). -/
def clearFb : Framebuffer := Vector.replicate 32 (Vector.replicate 64 false)

/-- The first `n` columns of one sprite row; bit 7 is the leftmost pixel (R175, D14). Only set bits toggle. -/
def drawColumns (vx py : Nat) (row : Byte) : Nat → Framebuffer × Bool → Framebuffer × Bool
  | 0, acc => acc
  | n + 1, acc =>
    let (fb, c) := drawColumns vx py row n acc
    if row.getLsbD (7 - n) then
      let (fb', hit) := togglePixel (vx + n) py fb
      (fb', c || hit)
    else (fb, c)

/-- Draw sprite rows downward from row `py`; the second component is the collision so far (R175). -/
def drawRows (vx : Nat) : Nat → List Byte → Framebuffer × Bool → Framebuffer × Bool
  | _, [], acc => acc
  | py, row :: rows, acc => drawRows vx (py + 1) rows (drawColumns vx py row 8 acc)

/-- `Snapshot()`: a read-only export of the grid (R172). -/
def snapshot (s : State) : Framebuffer := s.fb

/-- The cells in row-major order, index 64·y + x (R172, D26). -/
def rowMajor (grid : Framebuffer) : List Bool := grid.toList.flatMap Vector.toList

/-- `Render(grid, FG, BG, SCALE)`: each cell becomes a SCALE by SCALE block of its colour (R173). -/
def render {Colour : Type} (grid : Framebuffer) (fg bg : Colour) (scale : Nat) : List (List Colour) :=
  grid.toList.flatMap fun row =>
    List.replicate scale (row.toList.flatMap fun p => List.replicate scale (if p then fg else bg))

/-! ### Fetch (R11, R52, R56, R90) -/

/-- The range check of the two-byte fetch at PC. -/
def fetchFault (s : State) : Option Cause := rangeFault s.pc.toNat 2

/-- The big-endian word at PC. -/
def fetchedWord (s : State) : Word := wordOf (readMem s s.pc.toNat) (readMem s (s.pc.toNat + 1))

/-- Store an instruction's bytes at PC and make the next step fetch them: if PC cannot be fetched from it becomes
0x200, the machine runs, and the batch has an instruction left (log entry 5). -/
def placeWord (w : Word) (s : State) : State :=
  let s := if s.pc.toNat + 2 ≤ memSize then s else setPc 0x200 s
  let s := storeBytes s.pc.toNat [highByte w, lowByte w] (setMode .running s)
  match s.env.phase with
  | .batch (_ + 1) => s
  | .batch 0 => setPhase (.batch 1) s
  | .idle => setPhase (.batch 1) s

end Sys2Proof.Machine
end

