-- ==== Sys2Proof/Machine/Operands.lean ====
section
/-! DEFINITION. The operand forms (spec 30_encoding.md R73): register direct is `getV`, an immediate is its field, and
the rest are here: the widened immediates, the implied V0, and memory indirect through I with a constant offset
(20_memory.md R55). Every widening is a zero extension (R10). -/

namespace Sys2Proof.Machine

/-- `zext_16(nnn)`. -/
def zextAddr (nnn : Addr12) : Word := nnn.setWidth 16

/-- `zext_16(b)`. -/
def zextByte (b : Byte) : Word := b.setWidth 16

/-- The target of `Bnnn`: nnn + V0, not reduced to 12 bits (R117). -/
def indexedTarget (nnn : Addr12) (s : State) : Word := zextAddr nnn + zextByte (getV s V0)

/-- The base address of every memory operand, the value of I as a natural number (R55). -/
def memBase (s : State) : Nat := s.i.toNat

/-- The decimal digits `Fx33` stores, hundreds first (R153). -/
def decimalDigits (v : Byte) : List Byte :=
  [BitVec.ofNat 8 (v.toNat / 100), BitVec.ofNat 8 (v.toNat / 10 % 10), BitVec.ofNat 8 (v.toNat % 10)]

/-- The registers V0 to Vx in ascending order, the bytes `Fx55` stores (R154). -/
def regsUpTo (x : RegNum) (s : State) : List Byte := s.v.toList.take (x.val + 1)

/-- Load the first `n` registers from the bytes at `b`, `b + 1`, ... in ascending order (R155). -/
def loadFrom (m : Memory) (b : Nat) : Nat → Vector Byte 16 → Vector Byte 16
  | 0, v => v
  | n + 1, v =>
    let v' := loadFrom m b n v
    if h : n < 16 then v'.set n (m.read (b + n)) else v'

/-- The glyph address of a digit: 5·Vx, not reduced to 4 bits (R152). -/
def glyphAddress (v : Byte) : Word := BitVec.ofNat 16 (5 * v.toNat)

end Sys2Proof.Machine
end

