-- ==== Sys2Proof/Machine/ControlFlow.lean ====
section
/-! DEFINITION. The control-transfer instructions (spec 41_control_flow.md R110 to R118). PC already holds the address
of the following instruction (R91). A transfer never faults on its target (R118). -/

namespace Sys2Proof.Machine

/-- `00EE` RET (R110). -/
def execRet (s : State) : Outcome := guarded (popFault s) s (setPc (stackTop s) (popped s))

/-- `1nnn` JP nnn (R111). -/
def execJp (nnn : Addr12) (s : State) : Outcome := .next (setPc (zextAddr nnn) s)

/-- `2nnn` CALL nnn: the pushed address is that of the instruction after the call (R112). -/
def execCall (nnn : Addr12) (s : State) : Outcome := guarded (pushFault s) s (setPc (zextAddr nnn) (push s.pc s))

/-- `3xkk` SE Vx, kk (R113). -/
def execSeImm (x : RegNum) (kk : Byte) (s : State) : Outcome := .next (skipIf (getV s x == kk) s)

/-- `4xkk` SNE Vx, kk (R114). -/
def execSneImm (x : RegNum) (kk : Byte) (s : State) : Outcome := .next (skipIf (getV s x != kk) s)

/-- `5xy0` SE Vx, Vy (R115). -/
def execSeReg (x y : RegNum) (s : State) : Outcome := .next (skipIf (getV s x == getV s y) s)

/-- `9xy0` SNE Vx, Vy (R116). -/
def execSneReg (x y : RegNum) (s : State) : Outcome := .next (skipIf (getV s x != getV s y) s)

/-- `Bnnn` JP V0, nnn (R117). -/
def execJpV0 (nnn : Addr12) (s : State) : Outcome := .next (setPc (indexedTarget nnn s) s)

end Sys2Proof.Machine
end

