-- ==== Sys2Proof/Machine/Flags.lean ====
section
/-! DEFINITION. The one flag, VF (spec 10_state.md R22, R23; 42_load_alu.md R130). A flag is computed from the operands
as they were before the operation and is written after the result. -/

namespace Sys2Proof.Machine

/-- A flag's byte: always 0x00 or 0x01 (R22). -/
def flagByte (f : Bool) : Byte := if f then 1 else 0

/-- Carry out of bit 7 of an addition (R137). -/
def carryFlag (a b : Byte) : Bool := decide (255 < a.toNat + b.toNat)

/-- The strict comparison that SUB and SUBN write: the minuend is greater (R138, R140). -/
def greaterFlag (a b : Byte) : Bool := decide (b.toNat < a.toNat)

/-- The bit a right shift by one shifts out (R139). -/
def bit0Flag (a : Byte) : Bool := a.getLsbD 0

/-- The bit a left shift by one shifts out (R141). -/
def bit7Flag (a : Byte) : Bool := a.getLsbD 7

/-- Write VF as a flag. -/
def setFlag (f : Bool) (s : State) : State := setV VF (flagByte f) s

/-- Write the result to Vx, then the flag to VF: with x = F the flag survives (R130, D12). -/
def setResultAndFlag (x : RegNum) (r : Byte) (f : Bool) (s : State) : State := setFlag f (setV x r s)

end Sys2Proof.Machine
end

