-- ==== Sys2Proof/Machine/Display.lean ====
section
/-! DEFINITION. The display instructions (spec 44_display.md R174, R175). -/

namespace Sys2Proof.Machine

/-- `00E0` CLS: VF is not written (R174). -/
def execCls (s : State) : Outcome := .next (setFb clearFb s)

/-- The framebuffer and the collision of a sprite of `n` rows at (Vx, Vy), from the bytes at I (R175). -/
def drawSprite (x y : RegNum) (n : Nat) (s : State) : Framebuffer × Bool :=
  drawRows (getV s x).toNat (getV s y).toNat (s.mem.readBytes (memBase s) n) (s.fb, false)

/-- `Dxyn` DRW Vx, Vy, n: Vx, Vy and I are read before VF is reset, VF ends as the collision (R175, D13). -/
def execDrw (x y : RegNum) (n : Nat) (s : State) : Outcome :=
  guarded (rangeFault (memBase s) n) s (setFlag (drawSprite x y n s).2 (setFb (drawSprite x y n s).1 s))

end Sys2Proof.Machine
end

