-- ==== Sys2Proof/Machine/IndexMemory.lean ====
section
/-! DEFINITION. The address-register and memory-transfer instructions (spec 43_index_memory.md R150 to R155). The whole
range is checked before any effect (20_memory.md R56, D6); no transfer changes I (D34). -/

namespace Sys2Proof.Machine

/-- `Annn` LD I, nnn (R150). -/
def execLdI (nnn : Addr12) (s : State) : Outcome := .next (setI (zextAddr nnn) s)

/-- `Fx1E` ADD I, Vx: modulo 65536, VF is not written (R151). -/
def execAddIVx (x : RegNum) (s : State) : Outcome := .next (setI (s.i + zextByte (getV s x)) s)

/-- `Fx29` LD F, Vx (R152). -/
def execLdFVx (x : RegNum) (s : State) : Outcome := .next (setI (glyphAddress (getV s x)) s)

/-- `Fx33` LD B, Vx (R153). -/
def execLdBVx (x : RegNum) (s : State) : Outcome :=
  guarded (rangeFault (memBase s) 3) s (storeBytes (memBase s) (decimalDigits (getV s x)) s)

/-- `Fx55` LD [I], Vx (R154). -/
def execStoreRegs (x : RegNum) (s : State) : Outcome :=
  guarded (rangeFault (memBase s) (x.val + 1)) s (storeBytes (memBase s) (regsUpTo x s) s)

/-- `Fx65` LD Vx, [I] (R155). -/
def execLoadRegs (x : RegNum) (s : State) : Outcome :=
  guarded (rangeFault (memBase s) (x.val + 1)) s { s with v := loadFrom s.mem (memBase s) (x.val + 1) s.v }

end Sys2Proof.Machine
end

