-- ==== Sys2Proof/Machine/LoadAlu.lean ====
section
/-! DEFINITION. Register load, arithmetic, logic, shift and random instructions (spec 42_load_alu.md R130 to R142).
Every operand is read before either write (R130). -/

namespace Sys2Proof.Machine

/-- `6xkk` LD Vx, kk (R131). -/
def execLdImm (x : RegNum) (kk : Byte) (s : State) : Outcome := .next (setV x kk s)

/-- `7xkk` ADD Vx, kk: VF is not written as a flag (R132). -/
def execAddImm (x : RegNum) (kk : Byte) (s : State) : Outcome := .next (setV x (getV s x + kk) s)

/-- `8xy0` LD Vx, Vy (R133). -/
def execLdReg (x y : RegNum) (s : State) : Outcome := .next (setV x (getV s y) s)

/-- `8xy1` OR Vx, Vy: VF is not modified (R134, D35). -/
def execOrReg (x y : RegNum) (s : State) : Outcome := .next (setV x (getV s x ||| getV s y) s)

/-- `8xy2` AND Vx, Vy: VF is not modified (R135, D35). -/
def execAndReg (x y : RegNum) (s : State) : Outcome := .next (setV x (getV s x &&& getV s y) s)

/-- `8xy3` XOR Vx, Vy: VF is not modified (R136, D35). -/
def execXorReg (x y : RegNum) (s : State) : Outcome := .next (setV x (getV s x ^^^ getV s y) s)

/-- `8xy4` ADD Vx, Vy: VF is the carry; there is no carry in (R137). -/
def execAddReg (x y : RegNum) (s : State) : Outcome :=
  .next (setResultAndFlag x (getV s x + getV s y) (carryFlag (getV s x) (getV s y)) s)

/-- `8xy5` SUB Vx, Vy: VF = 1 exactly when Vx > Vy (R138, C2). -/
def execSubReg (x y : RegNum) (s : State) : Outcome :=
  .next (setResultAndFlag x (getV s x - getV s y) (greaterFlag (getV s x) (getV s y)) s)

/-- `8xy6` SHR Vx: in place, y ignored, VF is the bit shifted out (R139, D10). -/
def execShr (x _y : RegNum) (s : State) : Outcome :=
  .next (setResultAndFlag x (getV s x >>> 1) (bit0Flag (getV s x)) s)

/-- `8xy7` SUBN Vx, Vy: VF = 1 exactly when Vy > Vx (R140, D11). -/
def execSubnReg (x y : RegNum) (s : State) : Outcome :=
  .next (setResultAndFlag x (getV s y - getV s x) (greaterFlag (getV s y) (getV s x)) s)

/-- `8xyE` SHL Vx: in place, y ignored, VF is the bit shifted out (R141, D10). -/
def execShl (x _y : RegNum) (s : State) : Outcome :=
  .next (setResultAndFlag x (getV s x <<< 1) (bit7Flag (getV s x)) s)

/-- `Cxkk` RND Vx, kk: one draw, consumed whatever kk is (R142). -/
def execRnd (x : RegNum) (kk : Byte) (s : State) : Outcome := .next (setV x (drawnByte s &&& kk) (afterByteDraw s))

end Sys2Proof.Machine
end

