-- ==== Sys2Proof/Machine/TimersKeys.lean ====
section
/-! DEFINITION. The timer and keypad instructions (spec 45_timers_keys.md R190 to R196). -/

namespace Sys2Proof.Machine

/-- `Fx07` LD Vx, DT (R190). -/
def execLdVxDt (x : RegNum) (s : State) : Outcome := .next (setV x s.dt s)

/-- `Fx15` LD DT, Vx (R191). -/
def execLdDtVx (x : RegNum) (s : State) : Outcome := .next (setDt (getV s x) s)

/-- `Fx18` LD ST, Vx: TONE is not changed (R192). -/
def execLdStVx (x : RegNum) (s : State) : Outcome := .next (setSt (getV s x) s)

/-- `Ex9E` SKP Vx: the key code is the value of Vx (R193). -/
def execSkp (x : RegNum) (s : State) : Outcome :=
  .next (skipIf (keyPressed (getV s x).toNat s) (afterKeyQuery (getV s x).toNat s))

/-- `ExA1` SKNP Vx (R194). -/
def execSknp (x : RegNum) (s : State) : Outcome :=
  .next (skipIf (!keyPressed (getV s x).toNat s) (afterKeyQuery (getV s x).toNat s))

/-- `Fx0A` LD Vx, K: arms the wait; Vx is written by a later key poll (R195). -/
def execLdVxKey (x : RegNum) (s : State) : Outcome :=
  .next (setMode .waitingForKey (setKeyPrev (sampledKeys s) (setWaitReg x (afterKeySample s))))

end Sys2Proof.Machine
end

