-- ==== Sys2Proof/Machine/Driver.lean ====
section
/-! DEFINITION. The driver's operations and the phases of a cycle around the instruction batch (spec
40_fetch_execute_cycle.md R94 to R101, 70_reset_and_hazards.md R240 to R242, R255). -/

namespace Sys2Proof.Machine

/-- `Reset`: every element of the core at its reset value; the parameters and what the environment holds stay (R240,
log entry 4). -/
def driverReset (s : State) : State :=
  { State.reset with cfg := s.cfg, env := { s.env with reply := none } }

/-- `LoadFont` (R241). -/
def driverLoadFont (s : State) : State := setReply none (storeBytes 0 s.cfg.font s)

/-- The address of a program's first byte (R6: PROG_BASE). -/
def progBase : Nat := 0x200

/-- The greatest length of a program (R6: PROG_MAX). -/
def progMax : Nat := 3584

/-- `Load(program)`: on failure nothing of the core changes; on success only the program's bytes and PC do (R242, D24). -/
def driverLoad (program : List Byte) (s : State) : State :=
  if progMax < program.length then setReply (some (.loadError program.length)) s
  else setReply (some .ok) (setPc 0x200 (storeBytes progBase program s))

/-- The lowest key of a set (D19). -/
def lowestKey (k : KeySet) : Option Nat := (List.range 16).find? (fun j => k.getLsbD j)

/-- The keys newly pressed in a sample: down now, not down at the previous sample (R96, D18). -/
def newlyPressed (sample prev : KeySet) : KeySet := sample &&& ~~~prev

/-- `KeyPoll()`: complete a pending `Fx0A`, or remember the sample (R96). -/
def keyPoll (s : State) : State :=
  match lowestKey (newlyPressed (sampledKeys s) s.keyPrev) with
  | some k => setMode .running (setV s.waitReg (BitVec.ofNat 8 k) (afterKeySample s))
  | none => setKeyPrev (sampledKeys s) (afterKeySample s)

/-- One count of a timer, floored at 0. -/
def countDown (t : Byte) : Byte := if t = 0 then 0 else t - 1

/-- `TimerTick()` (R98). -/
def timerTick (s : State) : State := setSt (countDown s.st) (setDt (countDown s.dt) s)

/-- `ToneDecision()`, on the decremented value (R99). -/
def toneDecision (s : State) : State := setTone (decide (0 < s.st.toNat)) s

/-- What the Tone Source is asked for (R99, R226). -/
inductive ToneRequest where
  | start (frequencyHz : Nat)
  | stop
deriving DecidableEq, Repr

/-- The request TONE stands for (R35, R226). -/
def toneRequest (s : State) : ToneRequest := if s.tone then .start Config.toneHz else .stop

/-- `Present()`: one more present request, carrying the snapshot of this instant (R36, R100). -/
def present (s : State) : State :=
  { s with presents := s.presents + 1, env := { s.env with lastFrame := some (snapshot s) } }

/-- The beginning of `Cycle(ipf)`: in Faulted nothing happens but that the fatal cause comes back (R95, R255); the key
poll in WaitingForKey (R96); then the batch of at most ipf instructions (R97). -/
def beginCycle (ipf : Nat) (s : State) : State :=
  match s.mode with
  | .faulted c => setReply (some (.fatal c)) s
  | .waitingForKey => setPhase (.batch ipf) (keyPoll (setReply none s))
  | .running => setPhase (.batch ipf) (setReply none s)

/-- The end of a cycle after its batch: tick, tone decision, present (R94, R98 to R100). A cycle that ended in a fatal
cause has none of the three (R101). -/
def endCycle (s : State) : State :=
  match s.mode with
  | .faulted c => setReply (some (.fatal c)) (setPhase .idle s)
  | .running => setReply (some .ok) (setPhase .idle (present (toneDecision (timerTick s))))
  | .waitingForKey => setReply (some .ok) (setPhase .idle (present (toneDecision (timerTick s))))

/-- Begin one operation of the driver; all but `Cycle` are complete at once. -/
def startOp (op : DriverOp) (s : State) : State :=
  match op with
  | .reset => driverReset s
  | .loadFont => driverLoadFont s
  | .load program => driverLoad program s
  | .cycle ipf => beginCycle ipf s

/-- Between operations: begin the driver's next one. Where the driver has issued none, nothing happens (R253, R255). -/
def driverStep (s : State) : State :=
  match s.env.ops with
  | [] => s
  | op :: rest => startOp op (setOps rest s)

end Sys2Proof.Machine
end

