-- ==== Sys2Proof/Machine/Engine.lean ====
section
/-! DEFINITION. One instruction, the batch and the whole cycle (spec 40_fetch_execute_cycle.md R90 to R97). `instrStep`
is the spec's Step, `cycle` its Cycle in one function; the machine's own small step takes a cycle one instruction at a
time. -/

namespace Sys2Proof.Machine

/-- Decode and dispatch the word fetched at `a`; an unrecognized word is reported and nothing else happens (R77, R92). -/
def executeWord (w a : Word) (s : State) : Outcome :=
  match decodeWord w with
  | some i => exec i s
  | none => .next (report a w s)

/-- The spec's Step: fetch, advance PC, execute; a fetch that faults changes nothing but MODE (R90, R91). -/
def instrStep (s : State) : Outcome :=
  match fetchFault s with
  | some c => .next (raise c s)
  | none => executeWord (fetchedWord s) s.pc (advancePc s)

/-- Inside a cycle, with `remaining` instructions of the batch not yet taken: take one while the machine runs, and else
end the cycle (R97). -/
def batchStep (remaining : Nat) (s : State) : Outcome :=
  match remaining, s.mode with
  | 0, _ => .next (endCycle s)
  | n + 1, .running => instrStep (setPhase (.batch n) s)
  | _ + 1, .waitingForKey => .next (endCycle s)
  | _ + 1, .faulted _ => .next (endCycle s)

/-- Continue from a next state. -/
def andThen (o : Outcome) (f : State → Outcome) : Outcome :=
  match o with
  | .next t => f t
  | .fault r => .fault r
  | .refused r => .refused r

/-- The instruction batch as the loop of R94: at most `n` instructions, only while the machine runs. -/
def runBatch : Nat → State → Outcome
  | 0, s => .next s
  | n + 1, s =>
    match s.mode with
    | .running => andThen (instrStep s) (runBatch n)
    | .waitingForKey => .next s
    | .faulted _ => .next s

/-- `Cycle(ipf)` in one function, in the order of phases of R94. -/
def cycle (ipf : Nat) (s : State) : Outcome :=
  match s.mode with
  | .faulted c => .next (setReply (some (.fatal c)) s)
  | .waitingForKey => andThen (runBatch ipf (keyPoll (setReply none s))) (fun t => .next (endCycle t))
  | .running => andThen (runBatch ipf (setReply none s)) (fun t => .next (endCycle t))

end Sys2Proof.Machine
end

