-- ==== Sys2Proof/Machine/Step.lean ====
section
/-! DEFINITION. One step of the machine: between operations it begins the driver's next one, inside a cycle it takes one
instruction or ends the cycle (spec 00_scope.md R12, 40_fetch_execute_cycle.md R94). -/

namespace Sys2Proof.Machine

/-- One step. -/
def step (s : State) : Host.Outcome State Fault Refusal :=
  match s.env.phase with
  | .idle => .next (driverStep s)
  | .batch remaining => batchStep remaining s

/-- The state with the opcode table's word `w` of `nbits` bits stored where the next step fetches, and the machine
standing before an instruction of a batch (log entry 5). -/
def State.withFetchWord (s : State) (nbits w : Nat) : State := placeWord (tableWord nbits w) s

end Sys2Proof.Machine
end

