-- ==== Sys2Proof/Safety.lean ====
section
/-! DEFINITION. What claims are stated in: a healthy state, the invariant of the machine, what an instruction leaves
unchanged (its frame), and what a sprite covers. -/

namespace Sys2Proof.Machine

/-- A run is good while no fatal cause was taken and no unrecognized word was executed (R222). -/
def State.Healthy (s : State) : Prop := (∀ c, s.mode ≠ .faulted c) ∧ s.reports = []

/-- What every step keeps, from any state that has it. -/
structure State.Inv (s : State) : Prop where
  /-- Memory keeps its canonical form, inside the 4096 cells (R33, R50). -/
  memory : s.mem.wf
  /-- The stack never holds more than STACK_DEPTH entries (R20, R27). -/
  depth : ∀ d, s.cfg.stackDepth = some d → s.stack.length ≤ d
  /-- The stack holds only values `2nnn` pushed, each at most 4096 (R110). -/
  returns : ∀ a ∈ s.stack, a.toNat ≤ 4096
  /-- A fatal cause ends the cycle at once: no batch is open in Faulted (R101). -/
  halted : ∀ n, s.env.phase = .batch n → ∀ c, s.mode ≠ .faulted c

/-! ### Frames -/

/-- Nothing but general registers in `R` changed. -/
def OnlyRegsChange (R : RegNum → Prop) (s t : State) : Prop :=
  (∀ r, ¬ R r → getV t r = getV s r) ∧ (∀ a, readMem t a = readMem s a) ∧ t = { s with v := t.v }

/-- Nothing but PC changed. -/
def OnlyPcChanges (s t : State) : Prop :=
  (∀ r, getV t r = getV s r) ∧ (∀ a, readMem t a = readMem s a) ∧ t = { s with pc := t.pc }

/-- Nothing but PC and the stack changed. -/
def OnlyPcAndStackChange (s t : State) : Prop :=
  (∀ r, getV t r = getV s r) ∧ (∀ a, readMem t a = readMem s a) ∧ t = { s with pc := t.pc, stack := t.stack }

/-- Nothing but I changed. -/
def OnlyIChanges (s t : State) : Prop :=
  (∀ r, getV t r = getV s r) ∧ (∀ a, readMem t a = readMem s a) ∧ t = { s with i := t.i }

/-- Nothing but the memory bytes from `b` to `b + n - 1` changed. -/
def OnlyBytesChange (b n : Nat) (s t : State) : Prop :=
  (∀ r, getV t r = getV s r) ∧ (∀ a, ¬ (b ≤ a ∧ a < b + n) → readMem t a = readMem s a) ∧ t = { s with mem := t.mem }

/-- Nothing but the framebuffer and VF changed. -/
def OnlyDisplayAndVfChange (s t : State) : Prop :=
  (∀ r, r ≠ VF → getV t r = getV s r) ∧ (∀ a, readMem t a = readMem s a) ∧ t = { s with fb := t.fb, v := t.v }

/-- The fatal cause `c` was taken: MODE holds it, the cycle is over and answered with it, and nothing else changed
(R101, R219, R220). -/
def TakesCause (c : Cause) (s t : State) : Prop :=
  t = { s with mode := .faulted c, env := { s.env with phase := .idle, reply := some (.fatal c) } }

/-! ### The environment's answers -/

/-- `t` is `s` with one answer of the random source used up: the oldest queued one, or else a fresh free value. -/
def OneByteDrawn (s t : State) : Prop :=
  (∀ b bs, s.env.bytesIn = b :: bs → t.env = { s.env with bytesIn := bs }) ∧
  (s.env.bytesIn = [] → t.env = { s.env with draws := s.env.draws + 1 })

/-- `t` is `s` with one sample of the keys used up. -/
def OneSampleTaken (s t : State) : Prop :=
  (∀ k ks, s.env.keysIn = k :: ks → t.env = { s.env with keysIn := ks }) ∧
  (s.env.keysIn = [] → t.env = { s.env with draws := s.env.draws + 1 })

/-! ### Sprites -/

/-- Some set bit of the `n`-row sprite at I, drawn at (Vx, Vy), falls on the cell in column `cx` of row `cy`: bit 7 of a
byte is the leftmost pixel, and each pixel wraps on its own (R175). -/
def SpriteCovers (x y : RegNum) (n : Nat) (s : State) (cx : Fin 64) (cy : Fin 32) : Prop :=
  ∃ row, row < n ∧ ∃ col, col < 8 ∧ (readMem s (s.i.toNat + row)).getLsbD (7 - col) = true ∧
    ((getV s x).toNat + col) % 64 = cx.val ∧ ((getV s y).toNat + row) % 32 = cy.val

/-! ### What a step runs -/

/-- The step at `s` runs the instruction `i`: the machine runs, an instruction of the batch is left, and the two bytes at
PC decode to `i` (R90, R97). -/
def StepRuns (s : State) (i : Instr) : Prop :=
  (∃ n, s.env.phase = .batch (n + 1)) ∧ s.mode = .running ∧ s.pc.toNat + 2 ≤ 4096 ∧
    decodeWord (wordOf (readMem s s.pc.toNat) (readMem s (s.pc.toNat + 1))) = some i

/-- The step at `s` begins the driver's operation `op`. -/
def StepBegins (s : State) (op : DriverOp) : Prop := s.env.phase = .idle ∧ ∃ rest, s.env.ops = op :: rest

end Sys2Proof.Machine
end

