-- ==== Sys2Proof/Certificates/Slice0/Obligations.lean ====
section
/-! DEFINITION. The statements for the provers. Each docstring names the rules of the spec the statement formalises;
where a clause rests on a decision of the spec's own (92_eei_decisions.md) it says so. -/

open Sys2Proof Sys2Proof.Machine

/-! ### Encoding -/

/-- R71, R72, R74, R75 (D3, D4): decoding the word of a well-formed instruction gives the instruction back, and so
does decoding its two bytes at the head of any byte sequence. Log entries 9, 36. -/
def Obligations.EncodedInstructionDecodesBack : Prop :=
  ∀ i : Instr, i.wellFormed = true →
    decodeWord (encodeWord i) = some i ∧ ∀ rest, decode (encode i ++ rest) = .ok (i, rest)

/-- R74, R75 (D3, D4): a word that decodes is the word of the instruction it decodes to, and that instruction is well
formed. Log entries 9, 36. -/
def Obligations.DecodedWordEncodesBack : Prop :=
  ∀ (w : Word) (i : Instr), decodeWord w = some i → i.wellFormed = true ∧ encodeWord i = w

/-- R75, R76 (D4): for every row of the opcode map, a word decodes to an instruction of that row exactly when the word
AND the row's mask is the row's pattern; a word that matches no row is unrecognized. Log entry 9. -/
def Obligations.WordDecodesToARowExactlyWhenItMatches : Prop :=
  ∀ w : Word,
    (∀ row ∈ opcodeMap, w &&& row.mask = row.pattern ↔ ∃ i, decodeWord w = some i ∧ i.row = row) ∧
    ((∀ row ∈ opcodeMap, w &&& row.mask ≠ row.pattern) ↔ decodeWord w = none)

/-- R72, R75: words written out from the encodings decode to the instructions they stand for, one of every family, and
two words one digit off a pattern do not. Log entry 9. -/
def Obligations.WrittenOutWordsDecode : Prop :=
  decodeWord 0b0000000011100000 = some .cls ∧
  decodeWord 0b0000000011101110 = some .ret ∧
  decodeWord 0b0010001100000100 = some (.call 0x304) ∧
  decodeWord 0b0011111100000001 = some (.seImm 15 0x01) ∧
  decodeWord 0b0101000100100000 = some (.seReg 1 2) ∧
  decodeWord 0b0110000000000101 = some (.ldImm 0 0x05) ∧
  decodeWord 0b1000000000010100 = some (.addReg 0 1) ∧
  decodeWord 0b1010001100000000 = some (.ldI 0x300) ∧
  decodeWord 0b1101000100100101 = some (.drw 1 2 5) ∧
  decodeWord 0b1110010110011110 = some (.skp 5) ∧
  decodeWord 0b1111001001010101 = some (.storeRegs 2) ∧
  decodeWord 0b0101000100100001 = none ∧
  decodeWord 0b0000000100100011 = none

/-! ### The step -/

/-- R90, R91, R92: while the machine runs and an instruction of the batch is left, a step at a PC of at most 4094
whose two bytes decode to `i` is `exec i` with PC advanced by 2 and one instruction less of the batch. Log entries 2,
32. -/
def Obligations.StepRunsTheDecodedInstruction : Prop :=
  ∀ (s : State) (n : Nat) (i : Instr), s.env.phase = .batch (n + 1) → s.mode = .running → s.pc.toNat + 2 ≤ 4096 →
    decodeWord (wordOf (readMem s s.pc.toNat) (readMem s (s.pc.toNat + 1))) = some i →
    step s = exec i { s with pc := s.pc + 2, env := { s.env with phase := .batch n } }

/-- R77, R213 (D4, D23): where the word at PC is unrecognized the step appends its address and the word to REPORTS,
advances PC by 2, and changes nothing else but the count of the batch. Log entries 2, 9, 25. -/
def Obligations.UnrecognizedWordIsReportedAndSkipped : Prop :=
  ∀ (s : State) (n : Nat) (w : Word), s.env.phase = .batch (n + 1) → s.mode = .running → s.pc.toNat + 2 ≤ 4096 →
    w = wordOf (readMem s s.pc.toNat) (readMem s (s.pc.toNat + 1)) → decodeWord w = none →
    step s = .next { s with
      pc := s.pc + 2
      reports := s.reports ++ [{ addr := s.pc, word := w }]
      env := { s.env with phase := .batch n } }

/-- R56, R90, R101, R219, R220 (D5, D6, D7): a fetch above 4094 takes AddressOutOfRange(max(PC, 4096)) and ends the
cycle; PC stays, and nothing else changes. Log entries 6, 7, 10. -/
def Obligations.FetchBeyondMemoryTakesAddressOutOfRange : Prop :=
  ∀ (s : State) (n : Nat), s.env.phase = .batch (n + 1) → s.mode = .running → 4094 < s.pc.toNat →
    ∃ t, step s = .next t ∧ TakesCause (.addressOutOfRange (max s.pc.toNat 4096)) s t

/-- R77, R216, R219: every instruction and every step, in every state, answers a next state: nothing of the interface
faults or is refused. Log entries 6, 33. -/
def Obligations.EveryStepAnswersANextState : Prop :=
  (∀ (i : Instr) (s : State), ∃ t, exec i s = .next t) ∧ ∀ s : State, ∃ t, step s = .next t

/-- R94 to R101 (D7, D18, D20): from a state between operations whose next operation is `Cycle(ipf)`, at most ipf + 2
small steps give exactly what the spec's Cycle gives in one: poll, batch, tick, tone, present, in that order, or the
fatal cause. Log entries 7, 22, 32. -/
def Obligations.SmallStepsComputeTheCycle : Prop :=
  ∀ (s : State) (ipf : Nat) (rest : List DriverOp), s.env.phase = .idle → s.env.ops = .cycle ipf :: rest →
    ∃ k, k ≤ ipf + 2 ∧
      Sys2Proof.core.run k s = cycle ipf { s with env := { s.env with ops := rest } }

/-! ### Invariants -/

/-- R27, R50, R101, R110: every step, from any state with the invariant, gives a state with the invariant. Log entries
8, 31. -/
def Obligations.EveryStepKeepsTheInvariant : Prop :=
  ∀ s t : State, s.Inv → step s = .next t → t.Inv

/-- The reset state has the invariant. Log entry 1. -/
def Obligations.ResetHasTheInvariant : Prop := State.reset.Inv

/-- R41: the reset values. PC and MODE are the source document's; the zeros are the spec's own decision D9 (log entry
1). -/
def Obligations.ResetGivesTheValuesOfTheTable : Prop :=
  State.reset.pc = 0x200 ∧ State.reset.mode = .running ∧ (∀ r, getV State.reset r = 0) ∧ State.reset.i = 0 ∧
  State.reset.stack = [] ∧ State.reset.dt = 0 ∧ State.reset.st = 0 ∧ (∀ a, readMem State.reset a = 0) ∧
  (∀ x y, pixel State.reset.fb x y = false) ∧ State.reset.waitReg = 0 ∧ State.reset.keyPrev = 0 ∧
  State.reset.tone = false ∧ State.reset.presents = 0 ∧ State.reset.reports = []

/-- R33, R57: two memories in canonical form that read alike at every address are equal. Log entry 31. -/
def Obligations.CanonicalMemoriesThatReadAlikeAreEqual : Prop :=
  ∀ m m' : Memory, m.wf → m'.wf → (∀ a, m.read a = m'.read a) → m = m'

/-! ### The cycle -/

/-- R94, R97 to R100 (D1, D28): when the batch is over, or the machine waits for a key, the step ends the cycle: each
timer counts down by 1, floored at 0; TONE is (ST > 0) on the decremented value; one more present request carries the
framebuffer; the cycle answers ok; and nothing else changes. Log entries 18, 32, 35. -/
def Obligations.CycleEndTicksSoundsAndPresents : Prop :=
  ∀ (s : State) (n : Nat), s.env.phase = .batch n → (n = 0 ∧ s.mode = .running ∨ s.mode = .waitingForKey) →
    ∃ t, step s = .next t ∧ t.dt.toNat = s.dt.toNat - 1 ∧ t.st.toNat = s.st.toNat - 1 ∧
      (t.tone = true ↔ 0 < t.st.toNat) ∧
      t = { s with
        dt := t.dt
        st := t.st
        tone := t.tone
        presents := s.presents + 1
        env := { s.env with phase := .idle, reply := some .ok, lastFrame := some s.fb } }

/-- R94, R97: a cycle that begins in Running opens a batch of ipf instructions and changes nothing of the core. Log
entries 2, 32, 35. -/
def Obligations.CycleBeginsItsBatch : Prop :=
  ∀ (s : State) (n : Nat) (rest : List DriverOp), s.env.phase = .idle → s.env.ops = .cycle n :: rest →
    s.mode = .running →
    step s = .next { s with env := { s.env with phase := .batch n, ops := rest, reply := none } }

/-- R96 (D18, D19, D20): a cycle that begins in WaitingForKey samples the keys once. If a key is down that was up at
the previous sample, the lowest such key's code goes to V[WAITREG] and the machine runs; if none is, KEYPREV takes the
sample and the machine waits on. Either way the batch of the same cycle opens. Log entries 3, 20, 21, 22. -/
def Obligations.KeyPollCapturesTheLowestNewKey : Prop :=
  ∀ (s : State) (n : Nat) (rest : List DriverOp), s.env.phase = .idle → s.env.ops = .cycle n :: rest →
    s.mode = .waitingForKey →
    ∃ t, step s = .next t ∧
      (∀ k : Fin 16, (sampledKeys s).getLsbD k = true → s.keyPrev.getLsbD k = false →
        (∀ j < k, (sampledKeys s).getLsbD j = true → s.keyPrev.getLsbD j = true) →
        (∀ r, getV t r = if r = s.waitReg then BitVec.ofNat 8 k else getV s r) ∧ t.mode = .running ∧
          t.keyPrev = s.keyPrev) ∧
      ((∀ k : Fin 16, (sampledKeys s).getLsbD k = true → s.keyPrev.getLsbD k = true) →
        (∀ r, getV t r = getV s r) ∧ t.mode = .waitingForKey ∧ t.keyPrev = sampledKeys s) ∧
      t = { s with
        v := t.v
        mode := t.mode
        keyPrev := t.keyPrev
        env := { (afterKeySample s).env with phase := .batch n, ops := rest, reply := none } }

/-- R95, R255 (D7): a cycle in Faulted changes nothing of the core: no poll, no instruction, no tick, no tone decision,
no present request; what comes back to the driver is the fatal cause MODE holds. Log entry 7. -/
def Obligations.FaultedMachineIgnoresACycle : Prop :=
  ∀ (s : State) (n : Nat) (rest : List DriverOp) (c : Cause), s.env.phase = .idle → s.env.ops = .cycle n :: rest →
    s.mode = .faulted c →
      step s = .next { s with env := { s.env with ops := rest, reply := some (.fatal c) } }

/-- R30, R221 (D7): no step but the beginning of `Reset` leaves Faulted, or changes the cause it holds. Log entry 7.
-/
def Obligations.OnlyResetLeavesFaulted : Prop :=
  ∀ (s t : State) (c : Cause), s.mode = .faulted c → step s = .next t → t.mode ≠ .faulted c → StepBegins s .reset

/-- R97, R98, R100: k calls of `Cycle(0)` take 2k steps, count each timer down by k floored at 0, make k present
requests, and run no instruction. The machine is Running; the reset state need not be the start. Log entries 2, 32. -/
def Obligations.EmptyCyclesCountTheTimersDown : Prop :=
  ∀ (k : Nat) (s : State) (rest : List DriverOp), s.env.phase = .idle → s.mode = .running →
    s.env.ops = List.replicate k (.cycle 0) ++ rest →
    ∃ t : State, Sys2Proof.core.run (2 * k) s = .next t ∧ t.dt.toNat = s.dt.toNat - k ∧ t.st.toNat = s.st.toNat - k ∧
      t.presents = s.presents + k ∧ t.pc = s.pc ∧ t.mode = .running ∧ t.env.phase = .idle ∧ t.env.ops = rest ∧
      (∀ r, getV t r = getV s r) ∧ (∀ a, readMem t a = readMem s a)

/-! ### The driver's operations -/

/-- R240 (D9): `Reset`, in any mode, puts every element of the core at its reset value; the parameters and what the
environment holds stay. Log entries 1, 4. -/
def Obligations.ResetOperationRestoresTheResetState : Prop :=
  ∀ (s : State) (rest : List DriverOp), s.env.phase = .idle → s.env.ops = .reset :: rest →
    step s = .next { State.reset with cfg := s.cfg, env := { s.env with ops := rest, reply := none } }

/-- R211, R242 (D24): `Load` of at most 3584 bytes stores them from 0x200, sets PC to 0x200 and answers ok; `Load` of
more answers LoadError with the length. Nothing else changes in either case. Log entries 26, 35. -/
def Obligations.LoadStoresTheProgramOrAnswersLoadError : Prop :=
  ∀ (s : State) (p : List Byte) (rest : List DriverOp), s.env.phase = .idle → s.env.ops = .load p :: rest →
    (p.length ≤ 3584 → ∃ t, step s = .next t ∧ t.pc = 0x200 ∧
      (∀ a, readMem t a = if 0x200 ≤ a ∧ a < 0x200 + p.length then p.getD (a - 0x200) 0 else readMem s a) ∧
      t = { s with mem := t.mem, pc := t.pc, env := { s.env with ops := rest, reply := some .ok } }) ∧
    (3584 < p.length →
      step s = .next { s with env := { s.env with ops := rest, reply := some (.loadError p.length) } })

/-- R241 (D15, D25): `LoadFont` writes glyph d at 5·d: `F0 90 90 90 F0` for digit 0, the parameter FONT for the
others; nothing outside 0x000 to 0x04F changes. Log entries 11, 26. -/
def Obligations.LoadFontWritesTheGlyphs : Prop :=
  ∀ (s : State) (rest : List DriverOp), s.env.phase = .idle → s.env.ops = .loadFont :: rest →
    ∃ t, step s = .next t ∧
      readMem t 0 = 0xF0 ∧ readMem t 1 = 0x90 ∧ readMem t 2 = 0x90 ∧ readMem t 3 = 0x90 ∧ readMem t 4 = 0xF0 ∧
      (∀ (d : Fin 15) (r : Fin 5), readMem t (5 * (d.val + 1) + r.val) = s.cfg.glyphs[d][r]) ∧
      (∀ a, 0x50 ≤ a → readMem t a = readMem s a) ∧
      t = { s with mem := t.mem, env := { s.env with ops := rest, reply := none } }

/-- R243: after `Reset` and then `LoadFont` and `Load`, in either order, memory holds the font from 0, the program
from 0x200 and zero elsewhere, and the core is as `Reset` leaves it. The zeros rest on D9 (log entry 1). Log entries
1, 11, 26. -/
def Obligations.BootLaysOutMemory : Prop :=
  ∀ (s : State) (p : List Byte) (rest : List DriverOp), s.env.phase = .idle → p.length ≤ 3584 →
    (s.env.ops = [.reset, .loadFont, .load p] ++ rest ∨ s.env.ops = [.reset, .load p, .loadFont] ++ rest) →
    ∃ t : State, Sys2Proof.core.run 3 s = .next t ∧
      (∀ a, readMem t a = if a < 0x50 then s.cfg.font.getD a 0
        else if 0x200 ≤ a ∧ a < 0x200 + p.length then p.getD (a - 0x200) 0 else 0) ∧
      t = { State.reset with
        mem := t.mem, cfg := s.cfg, env := { s.env with ops := rest, reply := t.env.reply } }

/-! ### Control transfer -/

/-- R111, R117: `1nnn` sets PC to nnn and `Bnnn` to nnn + V0, not reduced to 12 bits; nothing else changes. Format A with
f = 1 and f = B. -/
def Obligations.JumpsLoadThePc : Prop :=
  (∀ w : Word, fieldF w = 0x1 → decodeWord w = some (.jp (fieldNNN w))) ∧
  (∀ w : Word, fieldF w = 0xB → decodeWord w = some (.jpV0 (fieldNNN w))) ∧
  ∀ (nnn : Addr12) (s : State),
    (∃ t, exec (.jp nnn) s = .next t ∧ t.pc.toNat = nnn.toNat ∧ OnlyPcChanges s t) ∧
    (∃ t, exec (.jpV0 nnn) s = .next t ∧ t.pc.toNat = nnn.toNat + (getV s 0).toNat ∧ OnlyPcChanges s t)

/-- R112, R215 (D8): `2nnn` pushes PC, the address after the call, and jumps to nnn; with a finite STACK_DEPTH and a
full stack it takes StackOverflow and changes nothing else. Log entries 6, 8. -/
def Obligations.CallPushesTheReturnAddress : Prop :=
  ∀ (nnn : Addr12) (s : State),
    ((∀ d, s.cfg.stackDepth = some d → s.stack.length < d) →
      ∃ t, exec (.call nnn) s = .next t ∧ t.pc.toNat = nnn.toNat ∧ t.stack = s.pc :: s.stack ∧
        OnlyPcAndStackChange s t) ∧
    (∀ d, s.cfg.stackDepth = some d → d ≤ s.stack.length →
      ∃ t, exec (.call nnn) s = .next t ∧ TakesCause .stackOverflow s t)

/-- R110, R212: `00EE` pops the stack into PC, as the value is; with an empty stack it takes StackUnderflow. Log entry
6. -/
def Obligations.ReturnPopsThePc : Prop :=
  ∀ s : State,
    (∀ a rest, s.stack = a :: rest →
      ∃ t, exec .ret s = .next t ∧ t.pc = a ∧ t.stack = rest ∧ OnlyPcAndStackChange s t) ∧
    (s.stack = [] → ∃ t, exec .ret s = .next t ∧ TakesCause .stackUnderflow s t)

/-- R27, R110, R112: a return from any state that has the stack a call left resumes at the instruction after the call,
with the stack as it was before the call. Log entry 8. -/
def Obligations.ReturnResumesAfterTheCall : Prop :=
  ∀ (nnn : Addr12) (s t u : State), (∀ d, s.cfg.stackDepth = some d → s.stack.length < d) →
    exec (.call nnn) s = .next t → u.stack = t.stack →
    exec .ret u = .next { u with pc := s.pc, stack := s.stack }

/-- R113, R114: `3xkk` adds 2 to the advanced PC exactly when Vx = kk, `4xkk` exactly when Vx ≠ kk; nothing else changes.
Format XK with f = 3 and f = 4. -/
def Obligations.SkipsCompareARegisterWithAnImmediate : Prop :=
  (∀ w : Word, fieldF w = 0x3 → decodeWord w = some (.seImm (fieldX w) (fieldKK w))) ∧
  (∀ w : Word, fieldF w = 0x4 → decodeWord w = some (.sneImm (fieldX w) (fieldKK w))) ∧
  ∀ (x : RegNum) (kk : Byte) (s : State),
    (∃ t, exec (.seImm x kk) s = .next t ∧ (getV s x = kk → t.pc = s.pc + 2) ∧ (getV s x ≠ kk → t.pc = s.pc) ∧
      OnlyPcChanges s t) ∧
    (∃ t, exec (.sneImm x kk) s = .next t ∧ (getV s x ≠ kk → t.pc = s.pc + 2) ∧ (getV s x = kk → t.pc = s.pc) ∧
      OnlyPcChanges s t)

/-- R115, R116 (D4 for the encoding): `5xy0` skips exactly when Vx = Vy, `9xy0` exactly when Vx ≠ Vy; nothing else
changes. -/
def Obligations.SkipsCompareTwoRegisters : Prop :=
  ∀ (x y : RegNum) (s : State),
    (∃ t, exec (.seReg x y) s = .next t ∧ (getV s x = getV s y → t.pc = s.pc + 2) ∧
      (getV s x ≠ getV s y → t.pc = s.pc) ∧ OnlyPcChanges s t) ∧
    (∃ t, exec (.sneReg x y) s = .next t ∧ (getV s x ≠ getV s y → t.pc = s.pc + 2) ∧
      (getV s x = getV s y → t.pc = s.pc) ∧ OnlyPcChanges s t)

/-! ### Load, arithmetic, logic, shift, random -/

/-- R131, R133: `6xkk` puts kk in Vx, `8xy0` puts Vy in Vx; nothing else changes. Format XK with f = 6, format XY with
f = 8 and last nibble 0. -/
def Obligations.LoadsSetOneRegister : Prop :=
  (∀ w : Word, fieldF w = 0x6 → decodeWord w = some (.ldImm (fieldX w) (fieldKK w))) ∧
  (∀ w : Word, fieldF w = 0x8 → fieldN w = 0x0 → decodeWord w = some (.ldReg (fieldX w) (fieldY w))) ∧
  (∀ (x : RegNum) (kk : Byte) (s : State),
    ∃ t, exec (.ldImm x kk) s = .next t ∧ getV t x = kk ∧ OnlyRegsChange (fun r => r = x) s t) ∧
  ∀ (x y : RegNum) (s : State),
    ∃ t, exec (.ldReg x y) s = .next t ∧ getV t x = getV s y ∧ OnlyRegsChange (fun r => r = x) s t

/-- R132: `7xkk` puts (Vx + kk) mod 256 in Vx; no flag is written, so VF changes only where x = F; nothing else changes.
Format XK with f = 7. -/
def Obligations.AddImmediateWrapsWithoutAFlag : Prop :=
  (∀ w : Word, fieldF w = 0x7 → decodeWord w = some (.addImm (fieldX w) (fieldKK w))) ∧
  ∀ (x : RegNum) (kk : Byte) (s : State),
    ∃ t, exec (.addImm x kk) s = .next t ∧ (getV t x).toNat = ((getV s x).toNat + kk.toNat) % 256 ∧
      OnlyRegsChange (fun r => r = x) s t

/-- R134, R135, R136 (D35): `8xy1`, `8xy2`, `8xy3` put the bitwise OR, AND, XOR of Vx and Vy in Vx, bit by bit; VF is
not written as a flag. Log entry 29. -/
def Obligations.LogicLeavesTheFlag : Prop :=
  ∀ (x y : RegNum) (s : State),
    (∃ t, exec (.orReg x y) s = .next t ∧
      (∀ j, (getV t x).getLsbD j = ((getV s x).getLsbD j || (getV s y).getLsbD j)) ∧
      OnlyRegsChange (fun r => r = x) s t) ∧
    (∃ t, exec (.andReg x y) s = .next t ∧
      (∀ j, (getV t x).getLsbD j = ((getV s x).getLsbD j && (getV s y).getLsbD j)) ∧
      OnlyRegsChange (fun r => r = x) s t) ∧
    (∃ t, exec (.xorReg x y) s = .next t ∧
      (∀ j, (getV t x).getLsbD j = ((getV s x).getLsbD j ^^ (getV s y).getLsbD j)) ∧
      OnlyRegsChange (fun r => r = x) s t)

/-- R130, R137 (D12 for x = F): `8xy4` leaves (Vx + Vy) mod 256 in Vx, for x ≠ F, and in VF 1 if Vx + Vy > 255 and
else 0; both operands are read first, and with x = F the flag survives. Log entry 14. -/
def Obligations.AddWritesTheCarry : Prop :=
  ∀ (x y : RegNum) (s : State),
    ∃ t, exec (.addReg x y) s = .next t ∧
      (x ≠ VF → (getV t x).toNat = ((getV s x).toNat + (getV s y).toNat) % 256) ∧
      getV t VF = (if 255 < (getV s x).toNat + (getV s y).toNat then 1 else 0) ∧
      OnlyRegsChange (fun r => r = x ∨ r = VF) s t

/-- R130, R138, R140 (D11, D12): `8xy5` leaves (Vx - Vy) mod 256 in Vx and in VF 1 exactly when Vx > Vy before; `8xy7`
leaves (Vy - Vx) mod 256 and 1 exactly when Vy > Vx; with x = F the flag survives. Log entries 13, 14. -/
def Obligations.SubtractionsWriteTheStrictComparison : Prop :=
  ∀ (x y : RegNum) (s : State),
    (∃ t, exec (.subReg x y) s = .next t ∧
      (x ≠ VF → (getV t x).toNat = ((getV s x).toNat + 256 - (getV s y).toNat) % 256) ∧
      getV t VF = (if (getV s y).toNat < (getV s x).toNat then 1 else 0) ∧
      OnlyRegsChange (fun r => r = x ∨ r = VF) s t) ∧
    (∃ t, exec (.subnReg x y) s = .next t ∧
      (x ≠ VF → (getV t x).toNat = ((getV s y).toNat + 256 - (getV s x).toNat) % 256) ∧
      getV t VF = (if (getV s x).toNat < (getV s y).toNat then 1 else 0) ∧
      OnlyRegsChange (fun r => r = x ∨ r = VF) s t)

/-- R139, R141 (D10, D12): `8xy6` leaves Vx div 2 in Vx and old bit 0 in VF, `8xyE` leaves (2·Vx) mod 256 and old bit
7; y plays no part, and with x = F the flag survives. Log entries 12, 14. -/
def Obligations.ShiftsWriteTheBitShiftedOut : Prop :=
  ∀ (x y : RegNum) (s : State),
    (∃ t, exec (.shr x y) s = .next t ∧ (x ≠ VF → (getV t x).toNat = (getV s x).toNat / 2) ∧
      (getV t VF).toNat = (getV s x).toNat % 2 ∧ OnlyRegsChange (fun r => r = x ∨ r = VF) s t) ∧
    (∃ t, exec (.shl x y) s = .next t ∧ (x ≠ VF → (getV t x).toNat = 2 * (getV s x).toNat % 256) ∧
      (getV t VF).toNat = (getV s x).toNat / 128 ∧ OnlyRegsChange (fun r => r = x ∨ r = VF) s t)

/-- R22, R130: after each of the six flag writers VF is 0 or 1, whatever x, y and the operands are, x = F included;
for `Dxyn` where its sprite lies in memory. Log entries 10, 14. -/
def Obligations.FlagIsAlwaysZeroOrOne : Prop :=
  ∀ (x y : RegNum) (n : Nat) (s : State) (i : Instr),
    (i = .addReg x y ∨ i = .subReg x y ∨ i = .shr x y ∨ i = .subnReg x y ∨ i = .shl x y ∨
      i = .drw x y n ∧ (n = 0 ∨ memBase s + n ≤ 4096)) →
    ∃ t, exec i s = .next t ∧ (getV t VF = 0 ∨ getV t VF = 1)

/-- R142 (D22): `Cxkk` puts (one answer of the random source) AND kk in Vx, uses that answer up whatever kk is, and
changes nothing else; the answer is the oldest one queued, or else the next free value. It holds for every answer. Log
entries 3, 24. -/
def Obligations.RandomByteIsMasked : Prop :=
  ∀ (x : RegNum) (kk : Byte) (s : State),
    ∃ t, exec (.rnd x kk) s = .next t ∧ getV t x = drawnByte s &&& kk ∧
      (∀ b bs, s.env.bytesIn = b :: bs → drawnByte s = b) ∧
      (s.env.bytesIn = [] → drawnByte s = Config.freeByte s.env.draws) ∧
      OneByteDrawn s t ∧ (∀ r, r ≠ x → getV t r = getV s r) ∧ (∀ a, readMem t a = readMem s a) ∧
      t = { s with v := t.v, env := t.env }

/-- R22, R23 (D35): an instruction that changes VF is one of the six flag writers, names VF as its destination x, or
is `FF65`. Log entries 29, 40. -/
def Obligations.VfChangesOnlyAsFlagOrDestination : Prop :=
  ∀ (i : Instr) (s t : State), exec i s = .next t → getV t VF ≠ getV s VF →
    (∃ x y, i = .addReg x y ∨ i = .subReg x y ∨ i = .shr x y ∨ i = .subnReg x y ∨ i = .shl x y) ∨
    (∃ x y n, i = .drw x y n) ∨
    (∃ kk, i = .ldImm VF kk ∨ i = .addImm VF kk ∨ i = .rnd VF kk) ∨
    (∃ y, i = .ldReg VF y ∨ i = .orReg VF y ∨ i = .andReg VF y ∨ i = .xorReg VF y) ∨
    i = .ldVxDt VF ∨ i = .loadRegs VF

/-! ### Address register and memory transfer -/

/-- R150: `Annn` puts nnn in I; nothing else changes. Format A with f = A. -/
def Obligations.LoadAddressRegister : Prop :=
  (∀ w : Word, fieldF w = 0xA → decodeWord w = some (.ldI (fieldNNN w))) ∧
  ∀ (nnn : Addr12) (s : State), ∃ t, exec (.ldI nnn) s = .next t ∧ t.i.toNat = nnn.toNat ∧ OnlyIChanges s t

/-- R151, R152 (D16): `Fx1E` puts (I + Vx) mod 65536 in I, `Fx29` puts 5·Vx, not reduced to 4 bits; VF is not written
and nothing else changes. Log entry 17. -/
def Obligations.AddressRegisterArithmetic : Prop :=
  ∀ (x : RegNum) (s : State),
    (∃ t, exec (.addIVx x) s = .next t ∧ t.i.toNat = (s.i.toNat + (getV s x).toNat) % 65536 ∧ OnlyIChanges s t) ∧
    (∃ t, exec (.ldFVx x) s = .next t ∧ t.i.toNat = 5 * (getV s x).toNat ∧ OnlyIChanges s t)

/-- R153 (D5, D6): with I at most 4093, `Fx33` stores the hundreds, tens and ones of Vx at I, I + 1, I + 2; every
other byte and everything else, I included, is unchanged. Log entry 10. -/
def Obligations.DecimalDigitsAreStored : Prop :=
  ∀ (x : RegNum) (s : State), memBase s + 3 ≤ 4096 →
    ∃ t, exec (.ldBVx x) s = .next t ∧
      (readMem t (memBase s)).toNat = (getV s x).toNat / 100 ∧
      (readMem t (memBase s + 1)).toNat = (getV s x).toNat / 10 % 10 ∧
      (readMem t (memBase s + 2)).toNat = (getV s x).toNat % 10 ∧
      OnlyBytesChange (memBase s) 3 s t

/-- R154 (D5, D6, D34): with I + x at most 4095, `Fx55` stores V0 to Vx at I to I + x; every other byte and everything
else, I included, is unchanged. Log entries 10, 29. -/
def Obligations.RegistersAreStored : Prop :=
  ∀ (x : RegNum) (s : State), memBase s + x.val ≤ 4095 →
    ∃ t, exec (.storeRegs x) s = .next t ∧
      (∀ r : RegNum, r ≤ x → readMem t (memBase s + r.val) = getV s r) ∧
      OnlyBytesChange (memBase s) (x.val + 1) s t

/-- R155 (D5, D6, D34): with I + x at most 4095, `Fx65` loads V0 to Vx from I to I + x; the registers above Vx and
everything else, I included, are unchanged. Log entries 10, 29. -/
def Obligations.RegistersAreLoaded : Prop :=
  ∀ (x : RegNum) (s : State), memBase s + x.val ≤ 4095 →
    ∃ t, exec (.loadRegs x) s = .next t ∧
      (∀ r : RegNum, r ≤ x → getV t r = readMem s (memBase s + r.val)) ∧
      OnlyRegsChange (fun r => r ≤ x) s t

/-- R56, R214, R219, R220 (D5, D6, D7): a transfer or a sprite whose last byte lies above 4095 takes
AddressOutOfRange(max(I, 4096)) before any effect. Log entries 6, 10. -/
def Obligations.TransfersBeyondMemoryTakeAddressOutOfRange : Prop :=
  ∀ (x y : RegNum) (n : Nat) (s : State),
    (4095 < memBase s + 2 →
      ∃ t, exec (.ldBVx x) s = .next t ∧ TakesCause (.addressOutOfRange (max (memBase s) 4096)) s t) ∧
    (4095 < memBase s + x.val →
      (∃ t, exec (.storeRegs x) s = .next t ∧ TakesCause (.addressOutOfRange (max (memBase s) 4096)) s t) ∧
      ∃ t, exec (.loadRegs x) s = .next t ∧ TakesCause (.addressOutOfRange (max (memBase s) 4096)) s t) ∧
    (0 < n → 4095 < memBase s + n - 1 →
      ∃ t, exec (.drw x y n) s = .next t ∧ TakesCause (.addressOutOfRange (max (memBase s) 4096)) s t)

/-! ### Display -/

/-- R170: `TogglePixel(px, py)` flips the cell at column px mod 64 and row py mod 32 and no other, and answers whether it
was ON; a second call at coordinates equal modulo (64, 32) restores the framebuffer and answers the opposite. -/
def Obligations.ToggleFlipsOneWrappedCell : Prop :=
  ∀ (px py px' py' : Nat) (fb : Framebuffer), px % 64 = px' % 64 → py % 32 = py' % 32 →
    (∀ (x : Fin 64) (y : Fin 32),
      (x.val = px % 64 → y.val = py % 32 →
        pixel (togglePixel px py fb).1 x y = !pixel fb x y ∧ (togglePixel px py fb).2 = pixel fb x y) ∧
      (¬ (x.val = px % 64 ∧ y.val = py % 32) → pixel (togglePixel px py fb).1 x y = pixel fb x y)) ∧
    (togglePixel px' py' (togglePixel px py fb).1).1 = fb ∧
    (togglePixel px' py' (togglePixel px py fb).1).2 = !(togglePixel px py fb).2

/-- R171, R174: `00E0` turns every cell OFF; VF and everything else is unchanged. Format Z, the word 0x00E0 exactly. -/
def Obligations.ClearTurnsEveryCellOff : Prop :=
  (∀ w : Word, decodeWord w = some .cls ↔ w = 0x00E0) ∧
  ∀ s : State, ∃ t, exec .cls s = .next t ∧ (∀ x y, pixel t.fb x y = false) ∧ (∀ r, getV t r = getV s r) ∧
    (∀ a, readMem t a = readMem s a) ∧ t = { s with fb := t.fb }

/-- R175 (D5, D6, D13, D14): where the n-row sprite at I lies in memory, or n = 0, `Dxyn` flips exactly the cells its
set bits cover, each coordinate wrapped, from the Vx and Vy before VF is reset; VF is 1 exactly when a covered cell
was ON and else 0; nothing else changes. Log entries 10, 15, 16, 27. -/
def Obligations.SpriteFlipsTheCellsItCovers : Prop :=
  ∀ (x y : RegNum) (n : Nat) (s : State), n ≤ 15 → (n = 0 ∨ memBase s + n ≤ 4096) →
    ∃ t, exec (.drw x y n) s = .next t ∧
      (∀ cx cy, SpriteCovers x y n s cx cy → pixel t.fb cx cy = !pixel s.fb cx cy) ∧
      (∀ cx cy, ¬ SpriteCovers x y n s cx cy → pixel t.fb cx cy = pixel s.fb cx cy) ∧
      ((∃ cx cy, SpriteCovers x y n s cx cy ∧ pixel s.fb cx cy = true) → getV t VF = 1) ∧
      ((∀ cx cy, SpriteCovers x y n s cx cy → pixel s.fb cx cy = false) → getV t VF = 0) ∧
      OnlyDisplayAndVfChange s t

/-- R175, R176: drawing the same sprite twice at the same place, with x ≠ F and y ≠ F, restores the framebuffer, and
the second draw's VF is 1 exactly when the first one lit a cell that was OFF. Log entries 10, 15, 16, 27. -/
def Obligations.SpriteDrawnTwiceRestoresTheDisplay : Prop :=
  ∀ (x y : RegNum) (n : Nat) (s t : State), n ≤ 15 → (n = 0 ∨ memBase s + n ≤ 4096) → x ≠ VF → y ≠ VF →
    exec (.drw x y n) s = .next t →
    ∃ u, exec (.drw x y n) t = .next u ∧ u.fb = s.fb ∧
      (getV u VF = 1 ↔ ∃ cx cy, SpriteCovers x y n s cx cy ∧ pixel s.fb cx cy = false)

/-- R173 (D27): Render makes 32·SCALE rows of 64·SCALE columns and fills each cell's SCALE by SCALE block with its
colour. Log entries 27, 28. -/
def Obligations.RenderFillsABlockPerCell : Prop :=
  ∀ (grid : Framebuffer) (fg bg : Nat) (scale : Nat),
    (render grid fg bg scale).length = 32 * scale ∧
    (∀ row ∈ render grid fg bg scale, row.length = 64 * scale) ∧
    ∀ (x : Fin 64) (y : Fin 32) (dx dy : Nat), dx < scale → dy < scale →
      ((render grid fg bg scale)[y.val * scale + dy]?.bind fun row => row[x.val * scale + dx]?) =
        some (if pixel grid x y then fg else bg)

/-! ### Timers and keys -/

/-- R190, R191, R192: `Fx07` puts DT in Vx, `Fx15` puts Vx in DT, `Fx18` puts Vx in ST (TONE unchanged); nothing else
changes. -/
def Obligations.TimersAreReadAndSet : Prop :=
  ∀ (x : RegNum) (s : State),
    (∃ t, exec (.ldVxDt x) s = .next t ∧ getV t x = s.dt ∧ OnlyRegsChange (fun r => r = x) s t) ∧
    (∃ t, exec (.ldDtVx x) s = .next t ∧ t.dt = getV s x ∧ (∀ r, getV t r = getV s r) ∧
      (∀ a, readMem t a = readMem s a) ∧ t = { s with dt := t.dt }) ∧
    (∃ t, exec (.ldStVx x) s = .next t ∧ t.st = getV s x ∧ (∀ r, getV t r = getV s r) ∧
      (∀ a, readMem t a = readMem s a) ∧ t = { s with st := t.st })

/-- R193, R194, R196 (D17, D21): `Ex9E` skips exactly when the key whose code is the value of Vx is down in one fresh
sample, `ExA1` exactly when it is not; with Vx above 15 no key is asked for, `Ex9E` does not skip and `ExA1` does. Log
entries 3, 19, 23. -/
def Obligations.KeySkipsFollowTheKeyNamedByVx : Prop :=
  ∀ (x : RegNum) (s : State),
    ∃ t u, exec (.skp x) s = .next t ∧ exec (.sknp x) s = .next u ∧
      ((getV s x).toNat < 16 → (sampledKeys s).getLsbD (getV s x).toNat = true → t.pc = s.pc + 2 ∧ u.pc = s.pc) ∧
      ((getV s x).toNat < 16 → (sampledKeys s).getLsbD (getV s x).toNat = false → t.pc = s.pc ∧ u.pc = s.pc + 2) ∧
      (15 < (getV s x).toNat → t.pc = s.pc ∧ u.pc = s.pc + 2 ∧ t.env = s.env ∧ u.env = s.env) ∧
      ((getV s x).toNat < 16 → OneSampleTaken s t ∧ OneSampleTaken s u) ∧
      (∀ k ks, s.env.keysIn = k :: ks → sampledKeys s = k) ∧
      (s.env.keysIn = [] → sampledKeys s = Config.freeKeys s.env.draws) ∧
      (∀ r, getV t r = getV s r ∧ getV u r = getV s r) ∧
      (∀ a, readMem t a = readMem s a ∧ readMem u a = readMem s a) ∧
      t = { s with pc := t.pc, env := t.env } ∧ u = { s with pc := u.pc, env := u.env }

/-- R195 (D18): `Fx0A` remembers x in WAITREG and one sample of the keys in KEYPREV, and makes the machine wait; PC
and every general register, Vx included, are unchanged. Log entries 3, 20. -/
def Obligations.WaitForKeyArmsTheWait : Prop :=
  ∀ (x : RegNum) (s : State),
    ∃ t, exec (.ldVxKey x) s = .next t ∧ t.waitReg = x ∧ t.keyPrev = sampledKeys s ∧ t.mode = .waitingForKey ∧
      OneSampleTaken s t ∧ (∀ r, getV t r = getV s r) ∧ (∀ a, readMem t a = readMem s a) ∧
      t = { s with waitReg := t.waitReg, keyPrev := t.keyPrev, mode := t.mode, env := t.env }

/-! ### Rules about the whole machine -/

/-- R26: how an instruction leaves PC, relative to the advanced PC it sees: unchanged, or 2 more after a taken skip, or a
jump's target, or the top of the stack after a return. -/
def Obligations.PcAfterAnInstruction : Prop :=
  ∀ (i : Instr) (s t : State), exec i s = .next t →
    t.pc = s.pc ∨
    (t.pc = s.pc + 2 ∧ ((∃ x kk, i = .seImm x kk ∨ i = .sneImm x kk) ∨ (∃ x y, i = .seReg x y ∨ i = .sneReg x y) ∨
      ∃ x, i = .skp x ∨ i = .sknp x)) ∨
    (∃ nnn, (i = .jp nnn ∨ i = .call nnn) ∧ t.pc.toNat = nnn.toNat) ∨
    (∃ nnn, i = .jpV0 nnn ∧ t.pc.toNat = nnn.toNat + (getV s 0).toNat) ∨
    (i = .ret ∧ ∃ rest, s.stack = t.pc :: rest)

/-- R216, R218, R220 (D5, D6, D8): an instruction that makes a running machine faulted is `00EE` on an empty stack,
`2nnn` on a full one, or one of the four I-relative accesses beyond memory, with the cause of its kind, and it changes
nothing else. Log entries 6, 8, 10. -/
def Obligations.OnlySixInstructionsTakeACause : Prop :=
  ∀ (i : Instr) (s t : State) (c : Cause), s.mode = .running → exec i s = .next t → t.mode = .faulted c →
    TakesCause c s t ∧
    ((i = .ret ∧ c = .stackUnderflow ∧ s.stack = []) ∨
     (∃ nnn d, i = .call nnn ∧ c = .stackOverflow ∧ s.cfg.stackDepth = some d ∧ d ≤ s.stack.length) ∨
     (∃ x, (i = .ldBVx x ∧ 4095 < memBase s + 2 ∨ (i = .storeRegs x ∨ i = .loadRegs x) ∧ 4095 < memBase s + x.val) ∧
       c = .addressOutOfRange (max (memBase s) 4096)) ∨
     (∃ x y n, i = .drw x y n ∧ 0 < n ∧ 4095 < memBase s + n - 1 ∧ c = .addressOutOfRange (max (memBase s) 4096)))

/-- R176 (5): a step that changes the framebuffer runs `00E0` or `Dxyn` or begins `Reset`. Log entry 2. -/
def Obligations.DisplayChangesOnlyByClsDrwAndReset : Prop :=
  ∀ s t : State, step s = .next t → t.fb ≠ s.fb →
    StepBegins s .reset ∨ ∃ i, StepRuns s i ∧ (i = .cls ∨ ∃ x y n, i = .drw x y n)

/-- R55, R57: a step that changes a byte of memory runs `Fx33` or `Fx55` or begins `Reset`, `LoadFont` or `Load`. Log
entry 2. -/
def Obligations.MemoryChangesOnlyByStoresAndTheDriver : Prop :=
  ∀ (s t : State) (a : Nat), step s = .next t → readMem t a ≠ readMem s a →
    StepBegins s .reset ∨ StepBegins s .loadFont ∨ (∃ p, StepBegins s (.load p)) ∨
    ∃ i, StepRuns s i ∧ ∃ x, i = .ldBVx x ∨ i = .storeRegs x

/-- R29, R192: no instruction reads ST: with another value of ST every instruction answers the same state but for ST
itself, and `Fx18` the same state altogether. -/
def Obligations.NoInstructionReadsTheSoundTimer : Prop :=
  ∀ (i : Instr) (s t : State) (b : Byte), exec i s = .next t →
    ((∀ x, i ≠ .ldStVx x) → exec i { s with st := b } = .next { t with st := b }) ∧
    ((∃ x, i = .ldStVx x) → exec i { s with st := b } = .next t)

/-- R35, R36, R37: no instruction reads or writes TONE or PRESENTS, and none reads or writes REPORTS: with other values
every instruction answers the same state but for these. -/
def Obligations.NoInstructionReadsTheOutputs : Prop :=
  ∀ (i : Instr) (s t : State) (b : Bool) (n : Nat) (l : List Report), exec i s = .next t →
    t.tone = s.tone ∧ t.presents = s.presents ∧ t.reports = s.reports ∧
    exec i { s with tone := b, presents := n, reports := l } =
      .next { t with tone := b, presents := n, reports := l }

/-- R7, R38: no step changes the parameters of the realisation. Log entries 4, 8. -/
def Obligations.ParametersNeverChange : Prop := ∀ s t : State, step s = .next t → t.cfg = s.cfg

/-- R5, R97, R217: inside a cycle no operation of the driver is begun: a step in a batch leaves the operations that
wait as they are, and a step between operations takes the oldest one, or changes nothing when none waits. Log entries
2, 33. -/
def Obligations.DriverActsOnlyBetweenCycles : Prop :=
  ∀ s t : State, step s = .next t →
    (∀ n, s.env.phase = .batch n → t.env.ops = s.env.ops) ∧
    (s.env.phase = .idle → s.env.ops = [] → t = s) ∧
    (∀ op rest, s.env.phase = .idle → s.env.ops = op :: rest → t.env.ops = rest)
end

