-- ==== Sys2Proof/Laws/State.lean ====
section
/-! SUPPORT. One lemma per field per update, so that no later proof unfolds a record update. -/

namespace Sys2Proof.Machine

variable (s : State)

@[simp] theorem setMem_mem (m : Memory) : (setMem m s).mem = m := rfl
@[simp] theorem setMem_v (m : Memory) : (setMem m s).v = s.v := rfl
@[simp] theorem setMem_i (m : Memory) : (setMem m s).i = s.i := rfl
@[simp] theorem setMem_pc (m : Memory) : (setMem m s).pc = s.pc := rfl
@[simp] theorem setMem_stack (m : Memory) : (setMem m s).stack = s.stack := rfl
@[simp] theorem setMem_dt (m : Memory) : (setMem m s).dt = s.dt := rfl
@[simp] theorem setMem_st (m : Memory) : (setMem m s).st = s.st := rfl
@[simp] theorem setMem_mode (m : Memory) : (setMem m s).mode = s.mode := rfl
@[simp] theorem setMem_fb (m : Memory) : (setMem m s).fb = s.fb := rfl
@[simp] theorem setMem_waitReg (m : Memory) : (setMem m s).waitReg = s.waitReg := rfl
@[simp] theorem setMem_keyPrev (m : Memory) : (setMem m s).keyPrev = s.keyPrev := rfl
@[simp] theorem setMem_tone (m : Memory) : (setMem m s).tone = s.tone := rfl
@[simp] theorem setMem_presents (m : Memory) : (setMem m s).presents = s.presents := rfl
@[simp] theorem setMem_reports (m : Memory) : (setMem m s).reports = s.reports := rfl
@[simp] theorem setMem_cfg (m : Memory) : (setMem m s).cfg = s.cfg := rfl
@[simp] theorem setMem_env (m : Memory) : (setMem m s).env = s.env := rfl

@[simp] theorem setI_mem (a : Word) : (setI a s).mem = s.mem := rfl
@[simp] theorem setI_v (a : Word) : (setI a s).v = s.v := rfl
@[simp] theorem setI_i (a : Word) : (setI a s).i = a := rfl
@[simp] theorem setI_pc (a : Word) : (setI a s).pc = s.pc := rfl
@[simp] theorem setI_stack (a : Word) : (setI a s).stack = s.stack := rfl
@[simp] theorem setI_dt (a : Word) : (setI a s).dt = s.dt := rfl
@[simp] theorem setI_st (a : Word) : (setI a s).st = s.st := rfl
@[simp] theorem setI_mode (a : Word) : (setI a s).mode = s.mode := rfl
@[simp] theorem setI_fb (a : Word) : (setI a s).fb = s.fb := rfl
@[simp] theorem setI_waitReg (a : Word) : (setI a s).waitReg = s.waitReg := rfl
@[simp] theorem setI_keyPrev (a : Word) : (setI a s).keyPrev = s.keyPrev := rfl
@[simp] theorem setI_tone (a : Word) : (setI a s).tone = s.tone := rfl
@[simp] theorem setI_presents (a : Word) : (setI a s).presents = s.presents := rfl
@[simp] theorem setI_reports (a : Word) : (setI a s).reports = s.reports := rfl
@[simp] theorem setI_cfg (a : Word) : (setI a s).cfg = s.cfg := rfl
@[simp] theorem setI_env (a : Word) : (setI a s).env = s.env := rfl

@[simp] theorem setPc_mem (a : Word) : (setPc a s).mem = s.mem := rfl
@[simp] theorem setPc_v (a : Word) : (setPc a s).v = s.v := rfl
@[simp] theorem setPc_i (a : Word) : (setPc a s).i = s.i := rfl
@[simp] theorem setPc_pc (a : Word) : (setPc a s).pc = a := rfl
@[simp] theorem setPc_stack (a : Word) : (setPc a s).stack = s.stack := rfl
@[simp] theorem setPc_dt (a : Word) : (setPc a s).dt = s.dt := rfl
@[simp] theorem setPc_st (a : Word) : (setPc a s).st = s.st := rfl
@[simp] theorem setPc_mode (a : Word) : (setPc a s).mode = s.mode := rfl
@[simp] theorem setPc_fb (a : Word) : (setPc a s).fb = s.fb := rfl
@[simp] theorem setPc_waitReg (a : Word) : (setPc a s).waitReg = s.waitReg := rfl
@[simp] theorem setPc_keyPrev (a : Word) : (setPc a s).keyPrev = s.keyPrev := rfl
@[simp] theorem setPc_tone (a : Word) : (setPc a s).tone = s.tone := rfl
@[simp] theorem setPc_presents (a : Word) : (setPc a s).presents = s.presents := rfl
@[simp] theorem setPc_reports (a : Word) : (setPc a s).reports = s.reports := rfl
@[simp] theorem setPc_cfg (a : Word) : (setPc a s).cfg = s.cfg := rfl
@[simp] theorem setPc_env (a : Word) : (setPc a s).env = s.env := rfl

@[simp] theorem setStack_mem (l : List Word) : (setStack l s).mem = s.mem := rfl
@[simp] theorem setStack_v (l : List Word) : (setStack l s).v = s.v := rfl
@[simp] theorem setStack_i (l : List Word) : (setStack l s).i = s.i := rfl
@[simp] theorem setStack_pc (l : List Word) : (setStack l s).pc = s.pc := rfl
@[simp] theorem setStack_stack (l : List Word) : (setStack l s).stack = l := rfl
@[simp] theorem setStack_dt (l : List Word) : (setStack l s).dt = s.dt := rfl
@[simp] theorem setStack_st (l : List Word) : (setStack l s).st = s.st := rfl
@[simp] theorem setStack_mode (l : List Word) : (setStack l s).mode = s.mode := rfl
@[simp] theorem setStack_fb (l : List Word) : (setStack l s).fb = s.fb := rfl
@[simp] theorem setStack_waitReg (l : List Word) : (setStack l s).waitReg = s.waitReg := rfl
@[simp] theorem setStack_keyPrev (l : List Word) : (setStack l s).keyPrev = s.keyPrev := rfl
@[simp] theorem setStack_tone (l : List Word) : (setStack l s).tone = s.tone := rfl
@[simp] theorem setStack_presents (l : List Word) : (setStack l s).presents = s.presents := rfl
@[simp] theorem setStack_reports (l : List Word) : (setStack l s).reports = s.reports := rfl
@[simp] theorem setStack_cfg (l : List Word) : (setStack l s).cfg = s.cfg := rfl
@[simp] theorem setStack_env (l : List Word) : (setStack l s).env = s.env := rfl

@[simp] theorem setDt_mem (b : Byte) : (setDt b s).mem = s.mem := rfl
@[simp] theorem setDt_v (b : Byte) : (setDt b s).v = s.v := rfl
@[simp] theorem setDt_i (b : Byte) : (setDt b s).i = s.i := rfl
@[simp] theorem setDt_pc (b : Byte) : (setDt b s).pc = s.pc := rfl
@[simp] theorem setDt_stack (b : Byte) : (setDt b s).stack = s.stack := rfl
@[simp] theorem setDt_dt (b : Byte) : (setDt b s).dt = b := rfl
@[simp] theorem setDt_st (b : Byte) : (setDt b s).st = s.st := rfl
@[simp] theorem setDt_mode (b : Byte) : (setDt b s).mode = s.mode := rfl
@[simp] theorem setDt_fb (b : Byte) : (setDt b s).fb = s.fb := rfl
@[simp] theorem setDt_waitReg (b : Byte) : (setDt b s).waitReg = s.waitReg := rfl
@[simp] theorem setDt_keyPrev (b : Byte) : (setDt b s).keyPrev = s.keyPrev := rfl
@[simp] theorem setDt_tone (b : Byte) : (setDt b s).tone = s.tone := rfl
@[simp] theorem setDt_presents (b : Byte) : (setDt b s).presents = s.presents := rfl
@[simp] theorem setDt_reports (b : Byte) : (setDt b s).reports = s.reports := rfl
@[simp] theorem setDt_cfg (b : Byte) : (setDt b s).cfg = s.cfg := rfl
@[simp] theorem setDt_env (b : Byte) : (setDt b s).env = s.env := rfl

@[simp] theorem setSt_mem (b : Byte) : (setSt b s).mem = s.mem := rfl
@[simp] theorem setSt_v (b : Byte) : (setSt b s).v = s.v := rfl
@[simp] theorem setSt_i (b : Byte) : (setSt b s).i = s.i := rfl
@[simp] theorem setSt_pc (b : Byte) : (setSt b s).pc = s.pc := rfl
@[simp] theorem setSt_stack (b : Byte) : (setSt b s).stack = s.stack := rfl
@[simp] theorem setSt_dt (b : Byte) : (setSt b s).dt = s.dt := rfl
@[simp] theorem setSt_st (b : Byte) : (setSt b s).st = b := rfl
@[simp] theorem setSt_mode (b : Byte) : (setSt b s).mode = s.mode := rfl
@[simp] theorem setSt_fb (b : Byte) : (setSt b s).fb = s.fb := rfl
@[simp] theorem setSt_waitReg (b : Byte) : (setSt b s).waitReg = s.waitReg := rfl
@[simp] theorem setSt_keyPrev (b : Byte) : (setSt b s).keyPrev = s.keyPrev := rfl
@[simp] theorem setSt_tone (b : Byte) : (setSt b s).tone = s.tone := rfl
@[simp] theorem setSt_presents (b : Byte) : (setSt b s).presents = s.presents := rfl
@[simp] theorem setSt_reports (b : Byte) : (setSt b s).reports = s.reports := rfl
@[simp] theorem setSt_cfg (b : Byte) : (setSt b s).cfg = s.cfg := rfl
@[simp] theorem setSt_env (b : Byte) : (setSt b s).env = s.env := rfl

@[simp] theorem setMode_mem (m : Mode) : (setMode m s).mem = s.mem := rfl
@[simp] theorem setMode_v (m : Mode) : (setMode m s).v = s.v := rfl
@[simp] theorem setMode_i (m : Mode) : (setMode m s).i = s.i := rfl
@[simp] theorem setMode_pc (m : Mode) : (setMode m s).pc = s.pc := rfl
@[simp] theorem setMode_stack (m : Mode) : (setMode m s).stack = s.stack := rfl
@[simp] theorem setMode_dt (m : Mode) : (setMode m s).dt = s.dt := rfl
@[simp] theorem setMode_st (m : Mode) : (setMode m s).st = s.st := rfl
@[simp] theorem setMode_mode (m : Mode) : (setMode m s).mode = m := rfl
@[simp] theorem setMode_fb (m : Mode) : (setMode m s).fb = s.fb := rfl
@[simp] theorem setMode_waitReg (m : Mode) : (setMode m s).waitReg = s.waitReg := rfl
@[simp] theorem setMode_keyPrev (m : Mode) : (setMode m s).keyPrev = s.keyPrev := rfl
@[simp] theorem setMode_tone (m : Mode) : (setMode m s).tone = s.tone := rfl
@[simp] theorem setMode_presents (m : Mode) : (setMode m s).presents = s.presents := rfl
@[simp] theorem setMode_reports (m : Mode) : (setMode m s).reports = s.reports := rfl
@[simp] theorem setMode_cfg (m : Mode) : (setMode m s).cfg = s.cfg := rfl
@[simp] theorem setMode_env (m : Mode) : (setMode m s).env = s.env := rfl

@[simp] theorem setFb_mem (f : Framebuffer) : (setFb f s).mem = s.mem := rfl
@[simp] theorem setFb_v (f : Framebuffer) : (setFb f s).v = s.v := rfl
@[simp] theorem setFb_i (f : Framebuffer) : (setFb f s).i = s.i := rfl
@[simp] theorem setFb_pc (f : Framebuffer) : (setFb f s).pc = s.pc := rfl
@[simp] theorem setFb_stack (f : Framebuffer) : (setFb f s).stack = s.stack := rfl
@[simp] theorem setFb_dt (f : Framebuffer) : (setFb f s).dt = s.dt := rfl
@[simp] theorem setFb_st (f : Framebuffer) : (setFb f s).st = s.st := rfl
@[simp] theorem setFb_mode (f : Framebuffer) : (setFb f s).mode = s.mode := rfl
@[simp] theorem setFb_fb (f : Framebuffer) : (setFb f s).fb = f := rfl
@[simp] theorem setFb_waitReg (f : Framebuffer) : (setFb f s).waitReg = s.waitReg := rfl
@[simp] theorem setFb_keyPrev (f : Framebuffer) : (setFb f s).keyPrev = s.keyPrev := rfl
@[simp] theorem setFb_tone (f : Framebuffer) : (setFb f s).tone = s.tone := rfl
@[simp] theorem setFb_presents (f : Framebuffer) : (setFb f s).presents = s.presents := rfl
@[simp] theorem setFb_reports (f : Framebuffer) : (setFb f s).reports = s.reports := rfl
@[simp] theorem setFb_cfg (f : Framebuffer) : (setFb f s).cfg = s.cfg := rfl
@[simp] theorem setFb_env (f : Framebuffer) : (setFb f s).env = s.env := rfl

@[simp] theorem setWaitReg_mem (x : RegNum) : (setWaitReg x s).mem = s.mem := rfl
@[simp] theorem setWaitReg_v (x : RegNum) : (setWaitReg x s).v = s.v := rfl
@[simp] theorem setWaitReg_i (x : RegNum) : (setWaitReg x s).i = s.i := rfl
@[simp] theorem setWaitReg_pc (x : RegNum) : (setWaitReg x s).pc = s.pc := rfl
@[simp] theorem setWaitReg_stack (x : RegNum) : (setWaitReg x s).stack = s.stack := rfl
@[simp] theorem setWaitReg_dt (x : RegNum) : (setWaitReg x s).dt = s.dt := rfl
@[simp] theorem setWaitReg_st (x : RegNum) : (setWaitReg x s).st = s.st := rfl
@[simp] theorem setWaitReg_mode (x : RegNum) : (setWaitReg x s).mode = s.mode := rfl
@[simp] theorem setWaitReg_fb (x : RegNum) : (setWaitReg x s).fb = s.fb := rfl
@[simp] theorem setWaitReg_waitReg (x : RegNum) : (setWaitReg x s).waitReg = x := rfl
@[simp] theorem setWaitReg_keyPrev (x : RegNum) : (setWaitReg x s).keyPrev = s.keyPrev := rfl
@[simp] theorem setWaitReg_tone (x : RegNum) : (setWaitReg x s).tone = s.tone := rfl
@[simp] theorem setWaitReg_presents (x : RegNum) : (setWaitReg x s).presents = s.presents := rfl
@[simp] theorem setWaitReg_reports (x : RegNum) : (setWaitReg x s).reports = s.reports := rfl
@[simp] theorem setWaitReg_cfg (x : RegNum) : (setWaitReg x s).cfg = s.cfg := rfl
@[simp] theorem setWaitReg_env (x : RegNum) : (setWaitReg x s).env = s.env := rfl

@[simp] theorem setKeyPrev_mem (k : KeySet) : (setKeyPrev k s).mem = s.mem := rfl
@[simp] theorem setKeyPrev_v (k : KeySet) : (setKeyPrev k s).v = s.v := rfl
@[simp] theorem setKeyPrev_i (k : KeySet) : (setKeyPrev k s).i = s.i := rfl
@[simp] theorem setKeyPrev_pc (k : KeySet) : (setKeyPrev k s).pc = s.pc := rfl
@[simp] theorem setKeyPrev_stack (k : KeySet) : (setKeyPrev k s).stack = s.stack := rfl
@[simp] theorem setKeyPrev_dt (k : KeySet) : (setKeyPrev k s).dt = s.dt := rfl
@[simp] theorem setKeyPrev_st (k : KeySet) : (setKeyPrev k s).st = s.st := rfl
@[simp] theorem setKeyPrev_mode (k : KeySet) : (setKeyPrev k s).mode = s.mode := rfl
@[simp] theorem setKeyPrev_fb (k : KeySet) : (setKeyPrev k s).fb = s.fb := rfl
@[simp] theorem setKeyPrev_waitReg (k : KeySet) : (setKeyPrev k s).waitReg = s.waitReg := rfl
@[simp] theorem setKeyPrev_keyPrev (k : KeySet) : (setKeyPrev k s).keyPrev = k := rfl
@[simp] theorem setKeyPrev_tone (k : KeySet) : (setKeyPrev k s).tone = s.tone := rfl
@[simp] theorem setKeyPrev_presents (k : KeySet) : (setKeyPrev k s).presents = s.presents := rfl
@[simp] theorem setKeyPrev_reports (k : KeySet) : (setKeyPrev k s).reports = s.reports := rfl
@[simp] theorem setKeyPrev_cfg (k : KeySet) : (setKeyPrev k s).cfg = s.cfg := rfl
@[simp] theorem setKeyPrev_env (k : KeySet) : (setKeyPrev k s).env = s.env := rfl

@[simp] theorem setTone_mem (b : Bool) : (setTone b s).mem = s.mem := rfl
@[simp] theorem setTone_v (b : Bool) : (setTone b s).v = s.v := rfl
@[simp] theorem setTone_i (b : Bool) : (setTone b s).i = s.i := rfl
@[simp] theorem setTone_pc (b : Bool) : (setTone b s).pc = s.pc := rfl
@[simp] theorem setTone_stack (b : Bool) : (setTone b s).stack = s.stack := rfl
@[simp] theorem setTone_dt (b : Bool) : (setTone b s).dt = s.dt := rfl
@[simp] theorem setTone_st (b : Bool) : (setTone b s).st = s.st := rfl
@[simp] theorem setTone_mode (b : Bool) : (setTone b s).mode = s.mode := rfl
@[simp] theorem setTone_fb (b : Bool) : (setTone b s).fb = s.fb := rfl
@[simp] theorem setTone_waitReg (b : Bool) : (setTone b s).waitReg = s.waitReg := rfl
@[simp] theorem setTone_keyPrev (b : Bool) : (setTone b s).keyPrev = s.keyPrev := rfl
@[simp] theorem setTone_tone (b : Bool) : (setTone b s).tone = b := rfl
@[simp] theorem setTone_presents (b : Bool) : (setTone b s).presents = s.presents := rfl
@[simp] theorem setTone_reports (b : Bool) : (setTone b s).reports = s.reports := rfl
@[simp] theorem setTone_cfg (b : Bool) : (setTone b s).cfg = s.cfg := rfl
@[simp] theorem setTone_env (b : Bool) : (setTone b s).env = s.env := rfl

@[simp] theorem setPhase_mem (p : Phase) : (setPhase p s).mem = s.mem := rfl
@[simp] theorem setPhase_v (p : Phase) : (setPhase p s).v = s.v := rfl
@[simp] theorem setPhase_i (p : Phase) : (setPhase p s).i = s.i := rfl
@[simp] theorem setPhase_pc (p : Phase) : (setPhase p s).pc = s.pc := rfl
@[simp] theorem setPhase_stack (p : Phase) : (setPhase p s).stack = s.stack := rfl
@[simp] theorem setPhase_dt (p : Phase) : (setPhase p s).dt = s.dt := rfl
@[simp] theorem setPhase_st (p : Phase) : (setPhase p s).st = s.st := rfl
@[simp] theorem setPhase_mode (p : Phase) : (setPhase p s).mode = s.mode := rfl
@[simp] theorem setPhase_fb (p : Phase) : (setPhase p s).fb = s.fb := rfl
@[simp] theorem setPhase_waitReg (p : Phase) : (setPhase p s).waitReg = s.waitReg := rfl
@[simp] theorem setPhase_keyPrev (p : Phase) : (setPhase p s).keyPrev = s.keyPrev := rfl
@[simp] theorem setPhase_tone (p : Phase) : (setPhase p s).tone = s.tone := rfl
@[simp] theorem setPhase_presents (p : Phase) : (setPhase p s).presents = s.presents := rfl
@[simp] theorem setPhase_reports (p : Phase) : (setPhase p s).reports = s.reports := rfl
@[simp] theorem setPhase_cfg (p : Phase) : (setPhase p s).cfg = s.cfg := rfl
@[simp] theorem setPhase_phase (p : Phase) : (setPhase p s).env.phase = p := rfl
@[simp] theorem setPhase_ops (p : Phase) : (setPhase p s).env.ops = s.env.ops := rfl
@[simp] theorem setPhase_keysIn (p : Phase) : (setPhase p s).env.keysIn = s.env.keysIn := rfl
@[simp] theorem setPhase_bytesIn (p : Phase) : (setPhase p s).env.bytesIn = s.env.bytesIn := rfl
@[simp] theorem setPhase_draws (p : Phase) : (setPhase p s).env.draws = s.env.draws := rfl
@[simp] theorem setPhase_reply (p : Phase) : (setPhase p s).env.reply = s.env.reply := rfl
@[simp] theorem setPhase_lastFrame (p : Phase) : (setPhase p s).env.lastFrame = s.env.lastFrame := rfl

@[simp] theorem setOps_mem (l : List DriverOp) : (setOps l s).mem = s.mem := rfl
@[simp] theorem setOps_v (l : List DriverOp) : (setOps l s).v = s.v := rfl
@[simp] theorem setOps_i (l : List DriverOp) : (setOps l s).i = s.i := rfl
@[simp] theorem setOps_pc (l : List DriverOp) : (setOps l s).pc = s.pc := rfl
@[simp] theorem setOps_stack (l : List DriverOp) : (setOps l s).stack = s.stack := rfl
@[simp] theorem setOps_dt (l : List DriverOp) : (setOps l s).dt = s.dt := rfl
@[simp] theorem setOps_st (l : List DriverOp) : (setOps l s).st = s.st := rfl
@[simp] theorem setOps_mode (l : List DriverOp) : (setOps l s).mode = s.mode := rfl
@[simp] theorem setOps_fb (l : List DriverOp) : (setOps l s).fb = s.fb := rfl
@[simp] theorem setOps_waitReg (l : List DriverOp) : (setOps l s).waitReg = s.waitReg := rfl
@[simp] theorem setOps_keyPrev (l : List DriverOp) : (setOps l s).keyPrev = s.keyPrev := rfl
@[simp] theorem setOps_tone (l : List DriverOp) : (setOps l s).tone = s.tone := rfl
@[simp] theorem setOps_presents (l : List DriverOp) : (setOps l s).presents = s.presents := rfl
@[simp] theorem setOps_reports (l : List DriverOp) : (setOps l s).reports = s.reports := rfl
@[simp] theorem setOps_cfg (l : List DriverOp) : (setOps l s).cfg = s.cfg := rfl
@[simp] theorem setOps_phase (l : List DriverOp) : (setOps l s).env.phase = s.env.phase := rfl
@[simp] theorem setOps_ops (l : List DriverOp) : (setOps l s).env.ops = l := rfl
@[simp] theorem setOps_keysIn (l : List DriverOp) : (setOps l s).env.keysIn = s.env.keysIn := rfl
@[simp] theorem setOps_bytesIn (l : List DriverOp) : (setOps l s).env.bytesIn = s.env.bytesIn := rfl
@[simp] theorem setOps_draws (l : List DriverOp) : (setOps l s).env.draws = s.env.draws := rfl
@[simp] theorem setOps_reply (l : List DriverOp) : (setOps l s).env.reply = s.env.reply := rfl
@[simp] theorem setOps_lastFrame (l : List DriverOp) : (setOps l s).env.lastFrame = s.env.lastFrame := rfl

@[simp] theorem setReply_mem (r : Option Reply) : (setReply r s).mem = s.mem := rfl
@[simp] theorem setReply_v (r : Option Reply) : (setReply r s).v = s.v := rfl
@[simp] theorem setReply_i (r : Option Reply) : (setReply r s).i = s.i := rfl
@[simp] theorem setReply_pc (r : Option Reply) : (setReply r s).pc = s.pc := rfl
@[simp] theorem setReply_stack (r : Option Reply) : (setReply r s).stack = s.stack := rfl
@[simp] theorem setReply_dt (r : Option Reply) : (setReply r s).dt = s.dt := rfl
@[simp] theorem setReply_st (r : Option Reply) : (setReply r s).st = s.st := rfl
@[simp] theorem setReply_mode (r : Option Reply) : (setReply r s).mode = s.mode := rfl
@[simp] theorem setReply_fb (r : Option Reply) : (setReply r s).fb = s.fb := rfl
@[simp] theorem setReply_waitReg (r : Option Reply) : (setReply r s).waitReg = s.waitReg := rfl
@[simp] theorem setReply_keyPrev (r : Option Reply) : (setReply r s).keyPrev = s.keyPrev := rfl
@[simp] theorem setReply_tone (r : Option Reply) : (setReply r s).tone = s.tone := rfl
@[simp] theorem setReply_presents (r : Option Reply) : (setReply r s).presents = s.presents := rfl
@[simp] theorem setReply_reports (r : Option Reply) : (setReply r s).reports = s.reports := rfl
@[simp] theorem setReply_cfg (r : Option Reply) : (setReply r s).cfg = s.cfg := rfl
@[simp] theorem setReply_phase (r : Option Reply) : (setReply r s).env.phase = s.env.phase := rfl
@[simp] theorem setReply_ops (r : Option Reply) : (setReply r s).env.ops = s.env.ops := rfl
@[simp] theorem setReply_keysIn (r : Option Reply) : (setReply r s).env.keysIn = s.env.keysIn := rfl
@[simp] theorem setReply_bytesIn (r : Option Reply) : (setReply r s).env.bytesIn = s.env.bytesIn := rfl
@[simp] theorem setReply_draws (r : Option Reply) : (setReply r s).env.draws = s.env.draws := rfl
@[simp] theorem setReply_reply (r : Option Reply) : (setReply r s).env.reply = r := rfl
@[simp] theorem setReply_lastFrame (r : Option Reply) : (setReply r s).env.lastFrame = s.env.lastFrame := rfl

@[simp] theorem setV_mem (r : RegNum) (b : Byte) : (setV r b s).mem = s.mem := rfl
@[simp] theorem setV_v (r : RegNum) (b : Byte) : (setV r b s).v = s.v.set r b := rfl
@[simp] theorem setV_i (r : RegNum) (b : Byte) : (setV r b s).i = s.i := rfl
@[simp] theorem setV_pc (r : RegNum) (b : Byte) : (setV r b s).pc = s.pc := rfl
@[simp] theorem setV_stack (r : RegNum) (b : Byte) : (setV r b s).stack = s.stack := rfl
@[simp] theorem setV_dt (r : RegNum) (b : Byte) : (setV r b s).dt = s.dt := rfl
@[simp] theorem setV_st (r : RegNum) (b : Byte) : (setV r b s).st = s.st := rfl
@[simp] theorem setV_mode (r : RegNum) (b : Byte) : (setV r b s).mode = s.mode := rfl
@[simp] theorem setV_fb (r : RegNum) (b : Byte) : (setV r b s).fb = s.fb := rfl
@[simp] theorem setV_waitReg (r : RegNum) (b : Byte) : (setV r b s).waitReg = s.waitReg := rfl
@[simp] theorem setV_keyPrev (r : RegNum) (b : Byte) : (setV r b s).keyPrev = s.keyPrev := rfl
@[simp] theorem setV_tone (r : RegNum) (b : Byte) : (setV r b s).tone = s.tone := rfl
@[simp] theorem setV_presents (r : RegNum) (b : Byte) : (setV r b s).presents = s.presents := rfl
@[simp] theorem setV_reports (r : RegNum) (b : Byte) : (setV r b s).reports = s.reports := rfl
@[simp] theorem setV_cfg (r : RegNum) (b : Byte) : (setV r b s).cfg = s.cfg := rfl
@[simp] theorem setV_env (r : RegNum) (b : Byte) : (setV r b s).env = s.env := rfl

@[simp] theorem setFlag_mem (f : Bool) : (setFlag f s).mem = s.mem := rfl
@[simp] theorem setFlag_i (f : Bool) : (setFlag f s).i = s.i := rfl
@[simp] theorem setFlag_pc (f : Bool) : (setFlag f s).pc = s.pc := rfl
@[simp] theorem setFlag_stack (f : Bool) : (setFlag f s).stack = s.stack := rfl
@[simp] theorem setFlag_dt (f : Bool) : (setFlag f s).dt = s.dt := rfl
@[simp] theorem setFlag_st (f : Bool) : (setFlag f s).st = s.st := rfl
@[simp] theorem setFlag_mode (f : Bool) : (setFlag f s).mode = s.mode := rfl
@[simp] theorem setFlag_fb (f : Bool) : (setFlag f s).fb = s.fb := rfl
@[simp] theorem setFlag_waitReg (f : Bool) : (setFlag f s).waitReg = s.waitReg := rfl
@[simp] theorem setFlag_keyPrev (f : Bool) : (setFlag f s).keyPrev = s.keyPrev := rfl
@[simp] theorem setFlag_tone (f : Bool) : (setFlag f s).tone = s.tone := rfl
@[simp] theorem setFlag_presents (f : Bool) : (setFlag f s).presents = s.presents := rfl
@[simp] theorem setFlag_reports (f : Bool) : (setFlag f s).reports = s.reports := rfl
@[simp] theorem setFlag_cfg (f : Bool) : (setFlag f s).cfg = s.cfg := rfl
@[simp] theorem setFlag_env (f : Bool) : (setFlag f s).env = s.env := rfl

@[simp] theorem setResultAndFlag_mem (x : RegNum) (r : Byte) (f : Bool) : (setResultAndFlag x r f s).mem = s.mem := rfl
@[simp] theorem setResultAndFlag_i (x : RegNum) (r : Byte) (f : Bool) : (setResultAndFlag x r f s).i = s.i := rfl
@[simp] theorem setResultAndFlag_pc (x : RegNum) (r : Byte) (f : Bool) : (setResultAndFlag x r f s).pc = s.pc := rfl
@[simp] theorem setResultAndFlag_stack (x : RegNum) (r : Byte) (f : Bool) : (setResultAndFlag x r f s).stack = s.stack := rfl
@[simp] theorem setResultAndFlag_dt (x : RegNum) (r : Byte) (f : Bool) : (setResultAndFlag x r f s).dt = s.dt := rfl
@[simp] theorem setResultAndFlag_st (x : RegNum) (r : Byte) (f : Bool) : (setResultAndFlag x r f s).st = s.st := rfl
@[simp] theorem setResultAndFlag_mode (x : RegNum) (r : Byte) (f : Bool) : (setResultAndFlag x r f s).mode = s.mode := rfl
@[simp] theorem setResultAndFlag_fb (x : RegNum) (r : Byte) (f : Bool) : (setResultAndFlag x r f s).fb = s.fb := rfl
@[simp] theorem setResultAndFlag_waitReg (x : RegNum) (r : Byte) (f : Bool) : (setResultAndFlag x r f s).waitReg = s.waitReg := rfl
@[simp] theorem setResultAndFlag_keyPrev (x : RegNum) (r : Byte) (f : Bool) : (setResultAndFlag x r f s).keyPrev = s.keyPrev := rfl
@[simp] theorem setResultAndFlag_tone (x : RegNum) (r : Byte) (f : Bool) : (setResultAndFlag x r f s).tone = s.tone := rfl
@[simp] theorem setResultAndFlag_presents (x : RegNum) (r : Byte) (f : Bool) : (setResultAndFlag x r f s).presents = s.presents := rfl
@[simp] theorem setResultAndFlag_reports (x : RegNum) (r : Byte) (f : Bool) : (setResultAndFlag x r f s).reports = s.reports := rfl
@[simp] theorem setResultAndFlag_cfg (x : RegNum) (r : Byte) (f : Bool) : (setResultAndFlag x r f s).cfg = s.cfg := rfl
@[simp] theorem setResultAndFlag_env (x : RegNum) (r : Byte) (f : Bool) : (setResultAndFlag x r f s).env = s.env := rfl

@[simp] theorem report_mem (a w : Word) : (report a w s).mem = s.mem := rfl
@[simp] theorem report_v (a w : Word) : (report a w s).v = s.v := rfl
@[simp] theorem report_i (a w : Word) : (report a w s).i = s.i := rfl
@[simp] theorem report_pc (a w : Word) : (report a w s).pc = s.pc := rfl
@[simp] theorem report_stack (a w : Word) : (report a w s).stack = s.stack := rfl
@[simp] theorem report_dt (a w : Word) : (report a w s).dt = s.dt := rfl
@[simp] theorem report_st (a w : Word) : (report a w s).st = s.st := rfl
@[simp] theorem report_mode (a w : Word) : (report a w s).mode = s.mode := rfl
@[simp] theorem report_fb (a w : Word) : (report a w s).fb = s.fb := rfl
@[simp] theorem report_waitReg (a w : Word) : (report a w s).waitReg = s.waitReg := rfl
@[simp] theorem report_keyPrev (a w : Word) : (report a w s).keyPrev = s.keyPrev := rfl
@[simp] theorem report_tone (a w : Word) : (report a w s).tone = s.tone := rfl
@[simp] theorem report_presents (a w : Word) : (report a w s).presents = s.presents := rfl
@[simp] theorem report_reports (a w : Word) : (report a w s).reports = s.reports ++ [{ addr := a, word := w }] := rfl
@[simp] theorem report_cfg (a w : Word) : (report a w s).cfg = s.cfg := rfl
@[simp] theorem report_env (a w : Word) : (report a w s).env = s.env := rfl

@[simp] theorem raise_mem (c : Cause) : (raise c s).mem = s.mem := rfl
@[simp] theorem raise_v (c : Cause) : (raise c s).v = s.v := rfl
@[simp] theorem raise_i (c : Cause) : (raise c s).i = s.i := rfl
@[simp] theorem raise_pc (c : Cause) : (raise c s).pc = s.pc := rfl
@[simp] theorem raise_stack (c : Cause) : (raise c s).stack = s.stack := rfl
@[simp] theorem raise_dt (c : Cause) : (raise c s).dt = s.dt := rfl
@[simp] theorem raise_st (c : Cause) : (raise c s).st = s.st := rfl
@[simp] theorem raise_mode (c : Cause) : (raise c s).mode = .faulted c := rfl
@[simp] theorem raise_fb (c : Cause) : (raise c s).fb = s.fb := rfl
@[simp] theorem raise_waitReg (c : Cause) : (raise c s).waitReg = s.waitReg := rfl
@[simp] theorem raise_keyPrev (c : Cause) : (raise c s).keyPrev = s.keyPrev := rfl
@[simp] theorem raise_tone (c : Cause) : (raise c s).tone = s.tone := rfl
@[simp] theorem raise_presents (c : Cause) : (raise c s).presents = s.presents := rfl
@[simp] theorem raise_reports (c : Cause) : (raise c s).reports = s.reports := rfl
@[simp] theorem raise_cfg (c : Cause) : (raise c s).cfg = s.cfg := rfl
@[simp] theorem raise_phase (c : Cause) : (raise c s).env.phase = .idle := rfl
@[simp] theorem raise_ops (c : Cause) : (raise c s).env.ops = s.env.ops := rfl
@[simp] theorem raise_keysIn (c : Cause) : (raise c s).env.keysIn = s.env.keysIn := rfl
@[simp] theorem raise_bytesIn (c : Cause) : (raise c s).env.bytesIn = s.env.bytesIn := rfl
@[simp] theorem raise_draws (c : Cause) : (raise c s).env.draws = s.env.draws := rfl
@[simp] theorem raise_reply (c : Cause) : (raise c s).env.reply = some (.fatal c) := rfl
@[simp] theorem raise_lastFrame (c : Cause) : (raise c s).env.lastFrame = s.env.lastFrame := rfl

@[simp] theorem advancePc_mem : (advancePc s).mem = s.mem := rfl
@[simp] theorem advancePc_v : (advancePc s).v = s.v := rfl
@[simp] theorem advancePc_i : (advancePc s).i = s.i := rfl
@[simp] theorem advancePc_pc : (advancePc s).pc = s.pc + 2 := rfl
@[simp] theorem advancePc_stack : (advancePc s).stack = s.stack := rfl
@[simp] theorem advancePc_dt : (advancePc s).dt = s.dt := rfl
@[simp] theorem advancePc_st : (advancePc s).st = s.st := rfl
@[simp] theorem advancePc_mode : (advancePc s).mode = s.mode := rfl
@[simp] theorem advancePc_fb : (advancePc s).fb = s.fb := rfl
@[simp] theorem advancePc_waitReg : (advancePc s).waitReg = s.waitReg := rfl
@[simp] theorem advancePc_keyPrev : (advancePc s).keyPrev = s.keyPrev := rfl
@[simp] theorem advancePc_tone : (advancePc s).tone = s.tone := rfl
@[simp] theorem advancePc_presents : (advancePc s).presents = s.presents := rfl
@[simp] theorem advancePc_reports : (advancePc s).reports = s.reports := rfl
@[simp] theorem advancePc_cfg : (advancePc s).cfg = s.cfg := rfl
@[simp] theorem advancePc_env : (advancePc s).env = s.env := rfl

@[simp] theorem popped_mem : (popped s).mem = s.mem := rfl
@[simp] theorem popped_v : (popped s).v = s.v := rfl
@[simp] theorem popped_i : (popped s).i = s.i := rfl
@[simp] theorem popped_pc : (popped s).pc = s.pc := rfl
@[simp] theorem popped_stack : (popped s).stack = s.stack.tail := rfl
@[simp] theorem popped_dt : (popped s).dt = s.dt := rfl
@[simp] theorem popped_st : (popped s).st = s.st := rfl
@[simp] theorem popped_mode : (popped s).mode = s.mode := rfl
@[simp] theorem popped_fb : (popped s).fb = s.fb := rfl
@[simp] theorem popped_waitReg : (popped s).waitReg = s.waitReg := rfl
@[simp] theorem popped_keyPrev : (popped s).keyPrev = s.keyPrev := rfl
@[simp] theorem popped_tone : (popped s).tone = s.tone := rfl
@[simp] theorem popped_presents : (popped s).presents = s.presents := rfl
@[simp] theorem popped_reports : (popped s).reports = s.reports := rfl
@[simp] theorem popped_cfg : (popped s).cfg = s.cfg := rfl
@[simp] theorem popped_env : (popped s).env = s.env := rfl

@[simp] theorem push_mem (v : Word) : (push v s).mem = s.mem := rfl
@[simp] theorem push_v (v : Word) : (push v s).v = s.v := rfl
@[simp] theorem push_i (v : Word) : (push v s).i = s.i := rfl
@[simp] theorem push_pc (v : Word) : (push v s).pc = s.pc := rfl
@[simp] theorem push_stack (v : Word) : (push v s).stack = v :: s.stack := rfl
@[simp] theorem push_dt (v : Word) : (push v s).dt = s.dt := rfl
@[simp] theorem push_st (v : Word) : (push v s).st = s.st := rfl
@[simp] theorem push_mode (v : Word) : (push v s).mode = s.mode := rfl
@[simp] theorem push_fb (v : Word) : (push v s).fb = s.fb := rfl
@[simp] theorem push_waitReg (v : Word) : (push v s).waitReg = s.waitReg := rfl
@[simp] theorem push_keyPrev (v : Word) : (push v s).keyPrev = s.keyPrev := rfl
@[simp] theorem push_tone (v : Word) : (push v s).tone = s.tone := rfl
@[simp] theorem push_presents (v : Word) : (push v s).presents = s.presents := rfl
@[simp] theorem push_reports (v : Word) : (push v s).reports = s.reports := rfl
@[simp] theorem push_cfg (v : Word) : (push v s).cfg = s.cfg := rfl
@[simp] theorem push_env (v : Word) : (push v s).env = s.env := rfl

@[simp] theorem storeBytes_mem (a : Nat) (bs : List Byte) : (storeBytes a bs s).mem = s.mem.writeBytes a bs := rfl
@[simp] theorem storeBytes_v (a : Nat) (bs : List Byte) : (storeBytes a bs s).v = s.v := rfl
@[simp] theorem storeBytes_i (a : Nat) (bs : List Byte) : (storeBytes a bs s).i = s.i := rfl
@[simp] theorem storeBytes_pc (a : Nat) (bs : List Byte) : (storeBytes a bs s).pc = s.pc := rfl
@[simp] theorem storeBytes_stack (a : Nat) (bs : List Byte) : (storeBytes a bs s).stack = s.stack := rfl
@[simp] theorem storeBytes_dt (a : Nat) (bs : List Byte) : (storeBytes a bs s).dt = s.dt := rfl
@[simp] theorem storeBytes_st (a : Nat) (bs : List Byte) : (storeBytes a bs s).st = s.st := rfl
@[simp] theorem storeBytes_mode (a : Nat) (bs : List Byte) : (storeBytes a bs s).mode = s.mode := rfl
@[simp] theorem storeBytes_fb (a : Nat) (bs : List Byte) : (storeBytes a bs s).fb = s.fb := rfl
@[simp] theorem storeBytes_waitReg (a : Nat) (bs : List Byte) : (storeBytes a bs s).waitReg = s.waitReg := rfl
@[simp] theorem storeBytes_keyPrev (a : Nat) (bs : List Byte) : (storeBytes a bs s).keyPrev = s.keyPrev := rfl
@[simp] theorem storeBytes_tone (a : Nat) (bs : List Byte) : (storeBytes a bs s).tone = s.tone := rfl
@[simp] theorem storeBytes_presents (a : Nat) (bs : List Byte) : (storeBytes a bs s).presents = s.presents := rfl
@[simp] theorem storeBytes_reports (a : Nat) (bs : List Byte) : (storeBytes a bs s).reports = s.reports := rfl
@[simp] theorem storeBytes_cfg (a : Nat) (bs : List Byte) : (storeBytes a bs s).cfg = s.cfg := rfl
@[simp] theorem storeBytes_env (a : Nat) (bs : List Byte) : (storeBytes a bs s).env = s.env := rfl

@[simp] theorem skipIf_mem (c : Bool) : (skipIf c s).mem = s.mem := by cases c <;> rfl
@[simp] theorem skipIf_v (c : Bool) : (skipIf c s).v = s.v := by cases c <;> rfl
@[simp] theorem skipIf_i (c : Bool) : (skipIf c s).i = s.i := by cases c <;> rfl
@[simp] theorem skipIf_pc (c : Bool) : (skipIf c s).pc = if c then s.pc + 2 else s.pc := by
  cases c <;> rfl
@[simp] theorem skipIf_stack (c : Bool) : (skipIf c s).stack = s.stack := by cases c <;> rfl
@[simp] theorem skipIf_dt (c : Bool) : (skipIf c s).dt = s.dt := by cases c <;> rfl
@[simp] theorem skipIf_st (c : Bool) : (skipIf c s).st = s.st := by cases c <;> rfl
@[simp] theorem skipIf_mode (c : Bool) : (skipIf c s).mode = s.mode := by cases c <;> rfl
@[simp] theorem skipIf_fb (c : Bool) : (skipIf c s).fb = s.fb := by cases c <;> rfl
@[simp] theorem skipIf_waitReg (c : Bool) : (skipIf c s).waitReg = s.waitReg := by cases c <;> rfl
@[simp] theorem skipIf_keyPrev (c : Bool) : (skipIf c s).keyPrev = s.keyPrev := by cases c <;> rfl
@[simp] theorem skipIf_tone (c : Bool) : (skipIf c s).tone = s.tone := by cases c <;> rfl
@[simp] theorem skipIf_presents (c : Bool) : (skipIf c s).presents = s.presents := by cases c <;> rfl
@[simp] theorem skipIf_reports (c : Bool) : (skipIf c s).reports = s.reports := by cases c <;> rfl
@[simp] theorem skipIf_cfg (c : Bool) : (skipIf c s).cfg = s.cfg := by cases c <;> rfl
@[simp] theorem skipIf_env (c : Bool) : (skipIf c s).env = s.env := by cases c <;> rfl

@[simp] theorem afterByteDraw_mem : (afterByteDraw s).mem = s.mem := by unfold afterByteDraw; split <;> rfl
@[simp] theorem afterByteDraw_v : (afterByteDraw s).v = s.v := by unfold afterByteDraw; split <;> rfl
@[simp] theorem afterByteDraw_i : (afterByteDraw s).i = s.i := by unfold afterByteDraw; split <;> rfl
@[simp] theorem afterByteDraw_pc : (afterByteDraw s).pc = s.pc := by unfold afterByteDraw; split <;> rfl
@[simp] theorem afterByteDraw_stack : (afterByteDraw s).stack = s.stack := by unfold afterByteDraw; split <;> rfl
@[simp] theorem afterByteDraw_dt : (afterByteDraw s).dt = s.dt := by unfold afterByteDraw; split <;> rfl
@[simp] theorem afterByteDraw_st : (afterByteDraw s).st = s.st := by unfold afterByteDraw; split <;> rfl
@[simp] theorem afterByteDraw_mode : (afterByteDraw s).mode = s.mode := by unfold afterByteDraw; split <;> rfl
@[simp] theorem afterByteDraw_fb : (afterByteDraw s).fb = s.fb := by unfold afterByteDraw; split <;> rfl
@[simp] theorem afterByteDraw_waitReg : (afterByteDraw s).waitReg = s.waitReg := by unfold afterByteDraw; split <;> rfl
@[simp] theorem afterByteDraw_keyPrev : (afterByteDraw s).keyPrev = s.keyPrev := by unfold afterByteDraw; split <;> rfl
@[simp] theorem afterByteDraw_tone : (afterByteDraw s).tone = s.tone := by unfold afterByteDraw; split <;> rfl
@[simp] theorem afterByteDraw_presents : (afterByteDraw s).presents = s.presents := by unfold afterByteDraw; split <;> rfl
@[simp] theorem afterByteDraw_reports : (afterByteDraw s).reports = s.reports := by unfold afterByteDraw; split <;> rfl
@[simp] theorem afterByteDraw_cfg : (afterByteDraw s).cfg = s.cfg := by unfold afterByteDraw; split <;> rfl
@[simp] theorem afterByteDraw_phase : (afterByteDraw s).env.phase = s.env.phase := by unfold afterByteDraw; split <;> rfl
@[simp] theorem afterByteDraw_ops : (afterByteDraw s).env.ops = s.env.ops := by unfold afterByteDraw; split <;> rfl
@[simp] theorem afterByteDraw_reply : (afterByteDraw s).env.reply = s.env.reply := by unfold afterByteDraw; split <;> rfl
@[simp] theorem afterByteDraw_lastFrame : (afterByteDraw s).env.lastFrame = s.env.lastFrame := by unfold afterByteDraw; split <;> rfl

@[simp] theorem afterKeySample_mem : (afterKeySample s).mem = s.mem := by unfold afterKeySample; split <;> rfl
@[simp] theorem afterKeySample_v : (afterKeySample s).v = s.v := by unfold afterKeySample; split <;> rfl
@[simp] theorem afterKeySample_i : (afterKeySample s).i = s.i := by unfold afterKeySample; split <;> rfl
@[simp] theorem afterKeySample_pc : (afterKeySample s).pc = s.pc := by unfold afterKeySample; split <;> rfl
@[simp] theorem afterKeySample_stack : (afterKeySample s).stack = s.stack := by unfold afterKeySample; split <;> rfl
@[simp] theorem afterKeySample_dt : (afterKeySample s).dt = s.dt := by unfold afterKeySample; split <;> rfl
@[simp] theorem afterKeySample_st : (afterKeySample s).st = s.st := by unfold afterKeySample; split <;> rfl
@[simp] theorem afterKeySample_mode : (afterKeySample s).mode = s.mode := by unfold afterKeySample; split <;> rfl
@[simp] theorem afterKeySample_fb : (afterKeySample s).fb = s.fb := by unfold afterKeySample; split <;> rfl
@[simp] theorem afterKeySample_waitReg : (afterKeySample s).waitReg = s.waitReg := by unfold afterKeySample; split <;> rfl
@[simp] theorem afterKeySample_keyPrev : (afterKeySample s).keyPrev = s.keyPrev := by unfold afterKeySample; split <;> rfl
@[simp] theorem afterKeySample_tone : (afterKeySample s).tone = s.tone := by unfold afterKeySample; split <;> rfl
@[simp] theorem afterKeySample_presents : (afterKeySample s).presents = s.presents := by unfold afterKeySample; split <;> rfl
@[simp] theorem afterKeySample_reports : (afterKeySample s).reports = s.reports := by unfold afterKeySample; split <;> rfl
@[simp] theorem afterKeySample_cfg : (afterKeySample s).cfg = s.cfg := by unfold afterKeySample; split <;> rfl
@[simp] theorem afterKeySample_phase : (afterKeySample s).env.phase = s.env.phase := by unfold afterKeySample; split <;> rfl
@[simp] theorem afterKeySample_ops : (afterKeySample s).env.ops = s.env.ops := by unfold afterKeySample; split <;> rfl
@[simp] theorem afterKeySample_reply : (afterKeySample s).env.reply = s.env.reply := by unfold afterKeySample; split <;> rfl
@[simp] theorem afterKeySample_lastFrame : (afterKeySample s).env.lastFrame = s.env.lastFrame := by unfold afterKeySample; split <;> rfl

@[simp] theorem afterKeyQuery_mem (k : Nat) : (afterKeyQuery k s).mem = s.mem := by
  unfold afterKeyQuery; split <;> simp
@[simp] theorem afterKeyQuery_v (k : Nat) : (afterKeyQuery k s).v = s.v := by
  unfold afterKeyQuery; split <;> simp
@[simp] theorem afterKeyQuery_i (k : Nat) : (afterKeyQuery k s).i = s.i := by
  unfold afterKeyQuery; split <;> simp
@[simp] theorem afterKeyQuery_pc (k : Nat) : (afterKeyQuery k s).pc = s.pc := by
  unfold afterKeyQuery; split <;> simp
@[simp] theorem afterKeyQuery_stack (k : Nat) : (afterKeyQuery k s).stack = s.stack := by
  unfold afterKeyQuery; split <;> simp
@[simp] theorem afterKeyQuery_dt (k : Nat) : (afterKeyQuery k s).dt = s.dt := by
  unfold afterKeyQuery; split <;> simp
@[simp] theorem afterKeyQuery_st (k : Nat) : (afterKeyQuery k s).st = s.st := by
  unfold afterKeyQuery; split <;> simp
@[simp] theorem afterKeyQuery_mode (k : Nat) : (afterKeyQuery k s).mode = s.mode := by
  unfold afterKeyQuery; split <;> simp
@[simp] theorem afterKeyQuery_fb (k : Nat) : (afterKeyQuery k s).fb = s.fb := by
  unfold afterKeyQuery; split <;> simp
@[simp] theorem afterKeyQuery_waitReg (k : Nat) : (afterKeyQuery k s).waitReg = s.waitReg := by
  unfold afterKeyQuery; split <;> simp
@[simp] theorem afterKeyQuery_keyPrev (k : Nat) : (afterKeyQuery k s).keyPrev = s.keyPrev := by
  unfold afterKeyQuery; split <;> simp
@[simp] theorem afterKeyQuery_tone (k : Nat) : (afterKeyQuery k s).tone = s.tone := by
  unfold afterKeyQuery; split <;> simp
@[simp] theorem afterKeyQuery_presents (k : Nat) : (afterKeyQuery k s).presents = s.presents := by
  unfold afterKeyQuery; split <;> simp
@[simp] theorem afterKeyQuery_reports (k : Nat) : (afterKeyQuery k s).reports = s.reports := by
  unfold afterKeyQuery; split <;> simp
@[simp] theorem afterKeyQuery_cfg (k : Nat) : (afterKeyQuery k s).cfg = s.cfg := by
  unfold afterKeyQuery; split <;> simp
@[simp] theorem afterKeyQuery_phase (k : Nat) : (afterKeyQuery k s).env.phase = s.env.phase := by
  unfold afterKeyQuery; split <;> simp
@[simp] theorem afterKeyQuery_ops (k : Nat) : (afterKeyQuery k s).env.ops = s.env.ops := by
  unfold afterKeyQuery; split <;> simp
@[simp] theorem afterKeyQuery_reply (k : Nat) : (afterKeyQuery k s).env.reply = s.env.reply := by
  unfold afterKeyQuery; split <;> simp
@[simp] theorem afterKeyQuery_lastFrame (k : Nat) : (afterKeyQuery k s).env.lastFrame = s.env.lastFrame := by
  unfold afterKeyQuery; split <;> simp

end Sys2Proof.Machine
end

