-- ==== Sys2Proof/Laws/Memory.lean ====
section
/-! SUPPORT. Memory: what a read gives after a write, the frame of a write, and that every memory operation keeps the
canonical form. -/

namespace Sys2Proof.Machine

/-! ### Reads and writes -/

theorem Memory.read_cons (k : Nat) (b : Byte) (m : Memory) (a : Nat) :
    Memory.read ((k, b) :: m) a = if k = a then b else Memory.read m a := rfl

theorem Memory.read_put (a : Nat) (b : Byte) (m : Memory) (a' : Nat) :
    Memory.read (Memory.put a b m) a' = if a = a' then b else Memory.read m a' := by
  induction m with
  | nil => rfl
  | cons c m ih =>
    obtain ⟨k, x⟩ := c
    simp only [Memory.put]
    split
    · rfl
    · split
      · next h => subst h; simp only [Memory.read_cons]; split <;> rfl
      · next h =>
        rw [Memory.read_cons, Memory.read_cons, ih]
        by_cases e : k = a'
        · subst e; simp [h]
        · simp [e]

theorem Memory.read_drop (a : Nat) (m : Memory) (a' : Nat) :
    Memory.read (Memory.drop a m) a' = if a = a' then 0 else Memory.read m a' := by
  induction m with
  | nil => simp [Memory.drop, Memory.read]
  | cons c m ih =>
    obtain ⟨k, x⟩ := c
    have ih' : Memory.read (List.filter (fun c => c.1 != a) m) a' = _ := ih
    by_cases e : k = a
    · subst e
      simp only [Memory.drop, List.filter_cons, bne_self_eq_false, Memory.read_cons]
      simp only [Bool.false_eq_true, if_false, ih']
      split <;> rfl
    · have : (k != a) = true := by simpa using e
      simp only [Memory.drop, List.filter_cons, this, if_true, Memory.read_cons, ih']
      by_cases e' : k = a'
      · subst e'
        have : a ≠ k := fun h => e h.symm
        simp [this]
      · simp [e']

/-- Read over write. -/
theorem Memory.read_write (a : Nat) (b : Byte) (m : Memory) (a' : Nat) :
    Memory.read (Memory.write a b m) a' = if a = a' then b else Memory.read m a' := by
  unfold Memory.write
  split
  · next h => subst h; exact Memory.read_drop a m a'
  · exact Memory.read_put a b m a'

/-- Read over a block write: inside the block the byte stored there, outside it what was there before. -/
theorem Memory.read_writeBytes (bs : List Byte) (a : Nat) (m : Memory) (a' : Nat) :
    Memory.read (Memory.writeBytes a bs m) a' =
      if a ≤ a' ∧ a' < a + bs.length then bs.getD (a' - a) 0 else Memory.read m a' := by
  induction bs generalizing a m with
  | nil => simp only [Memory.writeBytes, List.length_nil]; rw [if_neg]; omega
  | cons b bs ih =>
    simp only [Memory.writeBytes, ih, List.length_cons, Memory.read_write]
    by_cases e : a = a'
    · subst e
      rw [if_neg (by omega), if_pos rfl, if_pos (by omega)]
      simp
    · by_cases h : a + 1 ≤ a' ∧ a' < a + 1 + bs.length
      · rw [if_pos h, if_pos (by omega)]
        obtain ⟨k, hk⟩ : ∃ k, a' - a = k + 1 := ⟨a' - a - 1, by omega⟩
        have : a' - (a + 1) = k := by omega
        rw [hk, this]; simp
      · rw [if_neg h, if_neg e, if_neg (by omega)]

theorem Memory.length_readBytes (m : Memory) (a n : Nat) : (m.readBytes a n).length = n := by
  induction n generalizing a with
  | zero => rfl
  | succ n ih => simp [Memory.readBytes, ih]

theorem Memory.getElem_readBytes (m : Memory) (a n j : Nat) (h : j < (m.readBytes a n).length) :
    (m.readBytes a n)[j] = m.read (a + j) := by
  induction n generalizing a j with
  | zero => simp [Memory.readBytes] at h
  | succ n ih =>
    cases j with
    | zero => simp [Memory.readBytes]
    | succ j =>
      simp only [Memory.readBytes, List.getElem_cons_succ]
      rw [ih]; congr 1; omega

/-! ### The canonical form -/

theorem Memory.wf_nil : Memory.wf [] := ⟨List.Pairwise.nil, by simp⟩

theorem Memory.mem_put {a : Nat} {b : Byte} {m : Memory} {c : Host.Cell} (h : c ∈ Memory.put a b m) :
    c = (a, b) ∨ c ∈ m := by
  induction m with
  | nil => simpa [Memory.put] using h
  | cons d m ih =>
    obtain ⟨k, x⟩ := d
    simp only [Memory.put] at h
    split at h
    · simpa using h
    · split at h
      · rcases List.mem_cons.1 h with h | h
        · exact .inl h
        · exact .inr (List.mem_cons_of_mem _ h)
      · rcases List.mem_cons.1 h with h | h
        · exact .inr (h ▸ List.mem_cons_self)
        · exact (ih h).imp_right (List.mem_cons_of_mem _)

theorem Memory.pairwise_put {a : Nat} {b : Byte} {m : Memory} (h : m.Pairwise (fun p q => p.1 < q.1)) :
    (Memory.put a b m).Pairwise (fun p q => p.1 < q.1) := by
  induction m with
  | nil => simp [Memory.put]
  | cons d m ih =>
    obtain ⟨k, x⟩ := d
    obtain ⟨h1, h2⟩ := List.pairwise_cons.1 h
    simp only [Memory.put]
    split
    · next hk =>
      refine List.pairwise_cons.2 ⟨?_, h⟩
      intro c hc
      rcases List.mem_cons.1 hc with rfl | hc
      · exact hk
      · exact Nat.lt_trans hk (h1 c hc)
    · split
      · next _ he => exact List.pairwise_cons.2 ⟨fun c hc => he ▸ h1 c hc, h2⟩
      · next hk he =>
        refine List.pairwise_cons.2 ⟨?_, ih h2⟩
        intro c hc
        rcases Memory.mem_put hc with rfl | hc
        · show k < a; omega
        · exact h1 c hc

/-- A write inside the address space keeps the canonical form. -/
theorem Memory.wf_write {a : Nat} {b : Byte} {m : Memory} (ha : a < memSize) (h : m.wf) :
    (Memory.write a b m).wf := by
  unfold Memory.write
  split
  · exact ⟨h.1.filter _, fun c hc => h.2 c (List.mem_filter.1 hc).1⟩
  · next hb =>
    refine ⟨Memory.pairwise_put h.1, fun c hc => ?_⟩
    rcases Memory.mem_put hc with rfl | hc
    · exact ⟨ha, hb⟩
    · exact h.2 c hc

/-- A block write inside the address space keeps the canonical form. -/
theorem Memory.wf_writeBytes {bs : List Byte} {a : Nat} {m : Memory} (ha : a + bs.length ≤ memSize) (h : m.wf) :
    (Memory.writeBytes a bs m).wf := by
  induction bs generalizing a m with
  | nil => exact h
  | cons b bs ih =>
    simp only [List.length_cons] at ha
    exact ih (by omega) (Memory.wf_write (by omega) h)

/-- The reset memory has the canonical form. -/
theorem wf_reset : State.reset.mem.wf := Memory.wf_nil

@[simp] theorem readMem_setMem (s : State) (m : Memory) (a : Nat) : readMem (setMem m s) a = m.read a := rfl

theorem readMem_congr {s t : State} (h : s.mem = t.mem) (a : Nat) : readMem s a = readMem t a := by
  simp only [readMem, h]

theorem readMem_storeBytes (s : State) (b : Nat) (bs : List Byte) (a : Nat) :
    readMem (storeBytes b bs s) a =
      if b ≤ a ∧ a < b + bs.length then bs.getD (a - b) 0 else readMem s a :=
  Memory.read_writeBytes bs b s.mem a

/-- The range check passes exactly when every byte of the access exists (R56). -/
theorem rangeFault_eq_none (b n : Nat) : rangeFault b n = none ↔ n = 0 ∨ b + n ≤ memSize := by
  unfold rangeFault
  split
  · simp; omega
  · simp; omega

theorem rangeFault_eq_some (b n : Nat) (c : Cause) :
    rangeFault b n = some c ↔ (0 < n ∧ memSize < b + n) ∧ c = .addressOutOfRange (max b memSize) := by
  unfold rangeFault
  split
  · next h => simp [h, eq_comm]
  · next h => simp [h]

end Sys2Proof.Machine
end

