-- ==== Sys2Proof/Laws/Display.lean ====
section
/-! SUPPORT. The framebuffer: what one toggle does to every cell, and what a sprite does, row by row. -/

namespace Sys2Proof.Machine

/-- A framebuffer is what its cells are. -/
theorem fb_ext {f g : Framebuffer} (h : ∀ x y, pixel f x y = pixel g x y) : f = g := by
  apply Vector.ext
  intro j hj
  apply Vector.ext
  intro k hk
  exact h ⟨k, hk⟩ ⟨j, hj⟩

@[simp] theorem pixel_clearFb (x : Fin 64) (y : Fin 32) : pixel clearFb x y = false := by
  simp [pixel, clearFb]

/-- A toggle flips the one cell its wrapped coordinates name (R170). -/
theorem pixel_togglePixel (px py : Nat) (fb : Framebuffer) (x : Fin 64) (y : Fin 32) :
    pixel (togglePixel px py fb).1 x y =
      if px % 64 = x.val ∧ py % 32 = y.val then !pixel fb x y else pixel fb x y := by
  have hx : (Fin.ofNat 64 px).val = px % 64 := rfl
  have hy : (Fin.ofNat 32 py).val = py % 32 := rfl
  simp only [pixel, togglePixel, Fin.getElem_fin, hx, hy, Vector.getElem_set]
  by_cases e : py % 32 = y.val
  · by_cases e' : px % 64 = x.val
    · simp [e, e']
    · simp [e, e']
  · simp [e]

/-- The answer of a toggle is the cell before it (R170). -/
theorem togglePixel_hit (px py : Nat) (fb : Framebuffer) :
    (togglePixel px py fb).2 = pixel fb (Fin.ofNat 64 px) (Fin.ofNat 32 py) := rfl

/-- From `a` to `b` exactly the cells in `P` flipped, and the collision was set exactly when one of them was ON. -/
structure Toggled (P : Fin 64 → Fin 32 → Prop) (a b : Framebuffer × Bool) : Prop where
  flipped : ∀ x y, P x y → pixel b.1 x y = !pixel a.1 x y
  kept : ∀ x y, ¬ P x y → pixel b.1 x y = pixel a.1 x y
  collision : b.2 = true ↔ a.2 = true ∨ ∃ x y, P x y ∧ pixel a.1 x y = true

theorem Toggled.none {P : Fin 64 → Fin 32 → Prop} (a : Framebuffer × Bool) (h : ∀ x y, ¬ P x y) : Toggled P a a :=
  ⟨fun x y p => absurd p (h x y), fun _ _ _ => rfl, by
    constructor
    · exact .inl
    · rintro (h' | ⟨x, y, p, -⟩)
      · exact h'
      · exact absurd p (h x y)⟩

theorem Toggled.congr {P Q : Fin 64 → Fin 32 → Prop} {a b : Framebuffer × Bool} (h : ∀ x y, P x y ↔ Q x y)
    (t : Toggled P a b) : Toggled Q a b := by
  have : P = Q := by funext x y; exact propext (h x y)
  exact this ▸ t

/-- Two draws that touch no common cell are one draw of both. -/
theorem Toggled.trans {P Q : Fin 64 → Fin 32 → Prop} {a b c : Framebuffer × Bool} (hp : Toggled P a b)
    (hq : Toggled Q b c) (disj : ∀ x y, P x y → ¬ Q x y) : Toggled (fun x y => P x y ∨ Q x y) a c where
  flipped x y := by
    rintro (p | q)
    · rw [hq.kept x y (disj x y p), hp.flipped x y p]
    · rw [hq.flipped x y q, hp.kept x y (fun p => disj x y p q)]
  kept x y h := by
    rw [hq.kept x y (fun q => h (.inr q)), hp.kept x y (fun p => h (.inl p))]
  collision := by
    rw [hq.collision, hp.collision]
    constructor
    · rintro ((h | ⟨x, y, p, e⟩) | ⟨x, y, q, e⟩)
      · exact .inl h
      · exact .inr ⟨x, y, .inl p, e⟩
      · exact .inr ⟨x, y, .inr q, by rwa [hp.kept x y (fun p => disj x y p q)] at e⟩
    · rintro (h | ⟨x, y, p | q, e⟩)
      · exact .inl (.inl h)
      · exact .inl (.inr ⟨x, y, p, e⟩)
      · exact .inr ⟨x, y, q, by rwa [hp.kept x y (fun p => disj x y p q)]⟩

theorem Toggled.one (px py : Nat) (fb : Framebuffer) (c : Bool) :
    Toggled (fun x y => px % 64 = x.val ∧ py % 32 = y.val) (fb, c)
      ((togglePixel px py fb).1, c || (togglePixel px py fb).2) where
  flipped x y h := by rw [pixel_togglePixel, if_pos h]
  kept x y h := by rw [pixel_togglePixel, if_neg h]
  collision := by
    rw [togglePixel_hit]
    constructor
    · intro h
      rcases Bool.or_eq_true_iff.1 h with h | h
      · exact .inl h
      · exact .inr ⟨_, _, ⟨rfl, rfl⟩, h⟩
    · rintro (h | ⟨x, y, ⟨hx, hy⟩, e⟩)
      · exact Bool.or_eq_true_iff.2 (.inl h)
      · have ex : Fin.ofNat 64 px = x := Fin.ext hx
        have ey : Fin.ofNat 32 py = y := Fin.ext hy
        exact Bool.or_eq_true_iff.2 (.inr (by rw [ex, ey]; exact e))

/-- One sprite row: its first `n` columns flip the cells under its set bits, bit 7 leftmost, each wrapped (R175). -/
theorem drawColumns_toggled (vx py : Nat) (row : Byte) (n : Nat) (hn : n ≤ 8) (a : Framebuffer × Bool) :
    Toggled (fun x y => ∃ col, col < n ∧ row.getLsbD (7 - col) = true ∧ (vx + col) % 64 = x.val ∧ py % 32 = y.val)
      a (drawColumns vx py row n a) := by
  induction n with
  | zero => exact Toggled.none a (by rintro x y ⟨col, h, -⟩; omega)
  | succ n ih =>
    have ih := ih (by omega)
    simp only [drawColumns]
    split
    · next hb =>
      refine Toggled.congr ?_ (ih.trans (Toggled.one (vx + n) py _ _) ?_)
      · intro x y
        constructor
        · rintro (⟨col, h, r⟩ | ⟨hx, hy⟩)
          · exact ⟨col, by omega, r⟩
          · exact ⟨n, by omega, hb, hx, hy⟩
        · rintro ⟨col, h, b, hx, hy⟩
          by_cases e : col = n
          · exact .inr ⟨e ▸ hx, hy⟩
          · exact .inl ⟨col, by omega, b, hx, hy⟩
      · rintro x y ⟨col, h, -, hx, -⟩ ⟨hx', -⟩
        omega
    · next hb =>
      refine Toggled.congr ?_ ih
      intro x y
      constructor
      · rintro ⟨col, h, r⟩; exact ⟨col, by omega, r⟩
      · rintro ⟨col, h, b, r⟩
        refine ⟨col, ?_, b, r⟩
        by_cases e : col = n
        · subst e; exact absurd b hb
        · omega

/-- A sprite of at most 32 rows flips exactly the cells under its set bits, each once (R175). -/
theorem drawRows_toggled (vx py : Nat) (rows : List Byte) (hr : rows.length ≤ 32) (a : Framebuffer × Bool) :
    Toggled (fun x y => ∃ r, ∃ _ : r < rows.length, ∃ col, col < 8 ∧ (rows.getD r 0).getLsbD (7 - col) = true ∧
        (vx + col) % 64 = x.val ∧ (py + r) % 32 = y.val)
      a (drawRows vx py rows a) := by
  induction rows generalizing py a with
  | nil => exact Toggled.none a (by rintro x y ⟨r, h, -⟩; simp at h)
  | cons row rows ih =>
    simp only [List.length_cons] at hr
    refine Toggled.congr ?_ ((drawColumns_toggled vx py row 8 (by omega) a).trans (ih (py + 1) (by omega) _) ?_)
    · intro x y
      constructor
      · rintro (⟨col, h, b, hx, hy⟩ | ⟨r, hl, col, h, b, hx, hy⟩)
        · exact ⟨0, by simp, col, h, by simpa using b, hx, by simpa using hy⟩
        · exact ⟨r + 1, by simpa using hl, col, h, by simpa using b, hx, by rw [← hy]; congr 1; omega⟩
      · rintro ⟨r, hl, col, h, b, hx, hy⟩
        cases r with
        | zero => exact .inl ⟨col, h, by simpa using b, hx, by simpa using hy⟩
        | succ r =>
          exact .inr ⟨r, by simpa using hl, col, h, by simpa using b, hx, by rw [← hy]; congr 1; omega⟩
    · rintro x y ⟨col, h, -, -, hy⟩ ⟨r, hl, -, -, -, -, hy'⟩
      omega

end Sys2Proof.Machine
end

