-- ==== Sys2Proof/Laws/Registers.lean ====
section
/-! SUPPORT. The general registers and the flag: a read after a write, and what the flag-writing update leaves. -/

namespace Sys2Proof.Machine

theorem getV_def (s : State) (r : RegNum) : getV s r = s.v[r] := rfl

@[simp] theorem getV_setV_same (s : State) (r : RegNum) (b : Byte) : getV (setV r b s) r = b := by
  simp [getV]

theorem getV_setV_other (s : State) {r q : RegNum} (b : Byte) (h : q ≠ r) : getV (setV r b s) q = getV s q := by
  have : r.val ≠ q.val := fun e => h (Fin.ext e.symm)
  simp [getV, this]

theorem getV_setV (s : State) (r q : RegNum) (b : Byte) : getV (setV r b s) q = if q = r then b else getV s q := by
  by_cases h : q = r
  · subst h; simp
  · simp [h, getV_setV_other]

/-- A register file is what its reads give. -/
theorem v_ext {s t : State} (h : ∀ r, getV s r = getV t r) : s.v = t.v := by
  apply Vector.ext
  intro j hj
  exact h ⟨j, hj⟩

/-- Reads depend on the register file alone. -/
theorem getV_congr {s t : State} (h : s.v = t.v) (r : RegNum) : getV s r = getV t r := by
  simp only [getV, h]

/-- The flag survives a destination of VF (R130, D12). -/
@[simp] theorem getV_setResultAndFlag_VF (s : State) (x : RegNum) (r : Byte) (f : Bool) :
    getV (setResultAndFlag x r f s) VF = flagByte f := by
  simp [setResultAndFlag, setFlag]

theorem getV_setResultAndFlag_dest (s : State) {x : RegNum} (r : Byte) (f : Bool) (h : x ≠ VF) :
    getV (setResultAndFlag x r f s) x = r := by
  simp [setResultAndFlag, setFlag, getV_setV_other _ _ h]

theorem getV_setResultAndFlag_other (s : State) {x q : RegNum} (r : Byte) (f : Bool) (hx : q ≠ x) (hf : q ≠ VF) :
    getV (setResultAndFlag x r f s) q = getV s q := by
  simp [setResultAndFlag, setFlag, getV_setV_other _ _ hx, getV_setV_other _ _ hf]

/-- A flag's byte is 0 or 1 (R22). -/
theorem flagByte_cases (f : Bool) : flagByte f = 0 ∨ flagByte f = 1 := by
  cases f <;> simp [flagByte]

@[simp] theorem flagByte_eq_one (f : Bool) : flagByte f = 1 ↔ f = true := by
  cases f <;> simp [flagByte]

@[simp] theorem flagByte_eq_zero (f : Bool) : flagByte f = 0 ↔ f = false := by
  cases f <;> simp [flagByte]

/-- What a block load leaves: the first `n` registers come from memory, the others stay (R155). -/
theorem getElem_loadFrom (m : Memory) (b n : Nat) (v : Vector Byte 16) (j : Nat) (hj : j < 16) :
    (loadFrom m b n v)[j] = if j < n then m.read (b + j) else v[j] := by
  induction n with
  | zero => simp [loadFrom]
  | succ n ih =>
    simp only [loadFrom]
    split
    · rw [Vector.getElem_set, ih]
      by_cases e : n = j
      · subst e; simp
      · have : (j < n + 1) ↔ (j < n) := by omega
        simp [e, this]
    · have h1 : j < n + 1 := by omega
      have h2 : j < n := by omega
      rw [ih]; simp [h1, h2]

end Sys2Proof.Machine
end

