-- ==== Sys2Proof/Laws/Step.lean ====
section
/-! SUPPORT. What a step can do, said once: one lemma per phase, and the inversion lemmas later proofs cite instead of
unfolding the step. -/

namespace Sys2Proof.Machine

@[simp] theorem guarded_none (s t : State) : guarded none s t = .next t := rfl

@[simp] theorem guarded_some (c : Cause) (s t : State) : guarded (some c) s t = .next (raise c s) := rfl

/-- A guarded instruction takes its cause or completes. -/
theorem guarded_cases {c : Option Cause} {s t u : State} (h : guarded c s t = .next u) :
    (∃ e, c = some e ∧ u = raise e s) ∨ (c = none ∧ u = t) := by
  cases c with
  | none => exact .inr ⟨rfl, by simpa using h.symm⟩
  | some e => exact .inl ⟨e, rfl, by simpa using h.symm⟩

theorem raise_takesCause (c : Cause) (s : State) : TakesCause c s (raise c s) := rfl

/-! ### The environment's answers -/

theorem afterByteDraw_cons {s : State} {b : Byte} {bs : List Byte} (h : s.env.bytesIn = b :: bs) :
    afterByteDraw s = { s with env := { s.env with bytesIn := bs } } := by
  unfold afterByteDraw; rw [h]

theorem afterByteDraw_nil {s : State} (h : s.env.bytesIn = []) :
    afterByteDraw s = { s with env := { s.env with draws := s.env.draws + 1 } } := by
  unfold afterByteDraw; rw [h]

theorem afterKeySample_cons {s : State} {k : KeySet} {ks : List KeySet} (h : s.env.keysIn = k :: ks) :
    afterKeySample s = { s with env := { s.env with keysIn := ks } } := by
  unfold afterKeySample; rw [h]

theorem afterKeySample_nil {s : State} (h : s.env.keysIn = []) :
    afterKeySample s = { s with env := { s.env with draws := s.env.draws + 1 } } := by
  unfold afterKeySample; rw [h]

/-- A sample changes nothing but the environment's side. -/
theorem afterKeySample_eq (s : State) : afterKeySample s = { s with env := (afterKeySample s).env } := by
  unfold afterKeySample; split <;> rfl

theorem afterByteDraw_eq (s : State) : afterByteDraw s = { s with env := (afterByteDraw s).env } := by
  unfold afterByteDraw; split <;> rfl

theorem oneByteDrawn_afterByteDraw (s : State) : OneByteDrawn s (afterByteDraw s) :=
  ⟨fun _ _ h => by rw [afterByteDraw_cons h], fun h => by rw [afterByteDraw_nil h]⟩

theorem oneSampleTaken_afterKeySample (s : State) : OneSampleTaken s (afterKeySample s) :=
  ⟨fun _ _ h => by rw [afterKeySample_cons h], fun h => by rw [afterKeySample_nil h]⟩

/-! ### The stack checks -/

theorem pushFault_eq_none (s : State) :
    pushFault s = none ↔ ∀ d, s.cfg.stackDepth = some d → s.stack.length < d := by
  unfold pushFault stackFull
  cases h : s.cfg.stackDepth with
  | none => simp
  | some d => simp

theorem pushFault_eq_some (s : State) (c : Cause) :
    pushFault s = some c ↔ c = .stackOverflow ∧ ∃ d, s.cfg.stackDepth = some d ∧ d ≤ s.stack.length := by
  unfold pushFault stackFull
  cases h : s.cfg.stackDepth with
  | none => simp
  | some d => simp only [decide_eq_true_eq]; split <;> simp_all [eq_comm]

theorem popFault_eq_none (s : State) : popFault s = none ↔ ∃ a rest, s.stack = a :: rest := by
  unfold popFault
  cases s.stack <;> simp

theorem popFault_eq_some (s : State) (c : Cause) :
    popFault s = some c ↔ c = .stackUnderflow ∧ s.stack = [] := by
  unfold popFault
  cases s.stack <;> simp [eq_comm]

/-! ### One step, phase by phase -/

theorem step_idle {s : State} (h : s.env.phase = .idle) : step s = .next (driverStep s) := by
  simp only [step, h]

theorem step_batch {s : State} {n : Nat} (h : s.env.phase = .batch n) : step s = batchStep n s := by
  simp only [step, h]

theorem step_batch_running {s : State} {n : Nat} (h : s.env.phase = .batch (n + 1)) (hm : s.mode = .running) :
    step s = instrStep (setPhase (.batch n) s) := by
  rw [step_batch h]; unfold batchStep; rw [hm]

theorem step_batch_over {s : State} (h : s.env.phase = .batch 0) : step s = .next (endCycle s) := by
  rw [step_batch h]; rfl

theorem step_batch_stopped {s : State} {n : Nat} (h : s.env.phase = .batch n) (hm : s.mode ≠ .running) :
    step s = .next (endCycle s) := by
  rw [step_batch h]
  unfold batchStep
  split
  · rfl
  · next hr => exact absurd hr hm
  · rfl
  · rfl

/-! ### One instruction -/

theorem instrStep_fault {s : State} {c : Cause} (h : fetchFault s = some c) : instrStep s = .next (raise c s) := by
  unfold instrStep; rw [h]

theorem instrStep_decoded {s : State} {i : Instr} (h : fetchFault s = none) (hd : decodeWord (fetchedWord s) = some i) :
    instrStep s = exec i (advancePc s) := by
  unfold instrStep executeWord; rw [h, hd]

theorem instrStep_unrecognized {s : State} (h : fetchFault s = none) (hd : decodeWord (fetchedWord s) = none) :
    instrStep s = .next (report s.pc (fetchedWord s) (advancePc s)) := by
  unfold instrStep executeWord; rw [h, hd]

/-- Everything an instruction step can do. -/
theorem instrStep_cases {s t : State} (h : instrStep s = .next t) :
    (∃ c, fetchFault s = some c ∧ t = raise c s) ∨
    (∃ i, fetchFault s = none ∧ decodeWord (fetchedWord s) = some i ∧ exec i (advancePc s) = .next t) ∨
    (fetchFault s = none ∧ decodeWord (fetchedWord s) = none ∧ t = report s.pc (fetchedWord s) (advancePc s)) := by
  cases hf : fetchFault s with
  | some c =>
    rw [instrStep_fault hf] at h
    exact .inl ⟨c, rfl, by simpa using h.symm⟩
  | none =>
    cases hd : decodeWord (fetchedWord s) with
    | some i =>
      rw [instrStep_decoded hf hd] at h
      exact .inr (.inl ⟨i, rfl, rfl, h⟩)
    | none =>
      rw [instrStep_unrecognized hf hd] at h
      exact .inr (.inr ⟨rfl, rfl, by simpa using h.symm⟩)

/-- Everything a step can do: begin the driver's next operation or none, end the cycle, or take an instruction. -/
theorem step_cases {s t : State} (h : step s = .next t) :
    (s.env.phase = .idle ∧ t = driverStep s) ∨
    (∃ n, s.env.phase = .batch n ∧ (n = 0 ∨ s.mode ≠ .running) ∧ t = endCycle s) ∨
    (∃ n, s.env.phase = .batch (n + 1) ∧ s.mode = .running ∧ instrStep (setPhase (.batch n) s) = .next t) := by
  cases hp : s.env.phase with
  | idle =>
    rw [step_idle hp] at h
    exact .inl ⟨rfl, by simpa using h.symm⟩
  | batch n =>
    by_cases hm : s.mode = .running
    · cases n with
      | zero =>
        rw [step_batch_over hp] at h
        exact .inr (.inl ⟨0, rfl, .inl rfl, by simpa using h.symm⟩)
      | succ n =>
        rw [step_batch_running hp hm] at h
        exact .inr (.inr ⟨n, rfl, hm, h⟩)
    · rw [step_batch_stopped hp hm] at h
      exact .inr (.inl ⟨n, rfl, .inr hm, by simpa using h.symm⟩)

/-- The fetch check passes exactly at a PC of at most 4094 (R90). -/
theorem fetchFault_eq_none (s : State) : fetchFault s = none ↔ s.pc.toNat + 2 ≤ 4096 := by
  unfold fetchFault
  rw [rangeFault_eq_none]; simp [memSize]

end Sys2Proof.Machine
end

