-- ==== Sys2Proof/Laws/Driver.lean ====
section
/-! SUPPORT. The driver's operations and the phases of a cycle, one lemma per case. -/

namespace Sys2Proof.Machine

theorem driverStep_none {s : State} (h : s.env.ops = []) : driverStep s = s := by
  unfold driverStep; rw [h]

theorem driverStep_cons {s : State} {op : DriverOp} {rest : List DriverOp} (h : s.env.ops = op :: rest) :
    driverStep s = startOp op (setOps rest s) := by
  unfold driverStep; rw [h]

/-- Between operations the step begins the oldest one. -/
theorem step_op {s : State} {op : DriverOp} {rest : List DriverOp} (hp : s.env.phase = .idle)
    (ho : s.env.ops = op :: rest) : step s = .next (startOp op (setOps rest s)) := by
  rw [step_idle hp, driverStep_cons ho]

theorem beginCycle_running {s : State} (n : Nat) (h : s.mode = .running) :
    beginCycle n s = setPhase (.batch n) (setReply none s) := by
  unfold beginCycle; rw [h]

theorem beginCycle_waiting {s : State} (n : Nat) (h : s.mode = .waitingForKey) :
    beginCycle n s = setPhase (.batch n) (keyPoll (setReply none s)) := by
  unfold beginCycle; rw [h]

theorem beginCycle_faulted {s : State} {c : Cause} (n : Nat) (h : s.mode = .faulted c) :
    beginCycle n s = setReply (some (.fatal c)) s := by
  unfold beginCycle; rw [h]

theorem endCycle_faulted {s : State} {c : Cause} (h : s.mode = .faulted c) : endCycle s = setReply (some (.fatal c)) (setPhase .idle s) := by
  unfold endCycle; rw [h]

theorem endCycle_alive {s : State} (h : ∀ c, s.mode ≠ .faulted c) :
    endCycle s = setReply (some .ok) (setPhase .idle (present (toneDecision (timerTick s)))) := by
  unfold endCycle
  split
  · next c hm => exact absurd hm (h c)
  · rfl
  · rfl

/-! ### What the end of a cycle leaves -/

@[simp] theorem endCycle_mem (s : State) : (endCycle s).mem = s.mem := by
  unfold endCycle; split <;> simp [present, toneDecision, timerTick]

@[simp] theorem endCycle_v (s : State) : (endCycle s).v = s.v := by
  unfold endCycle; split <;> simp [present, toneDecision, timerTick]

@[simp] theorem endCycle_i (s : State) : (endCycle s).i = s.i := by
  unfold endCycle; split <;> simp [present, toneDecision, timerTick]

@[simp] theorem endCycle_pc (s : State) : (endCycle s).pc = s.pc := by
  unfold endCycle; split <;> simp [present, toneDecision, timerTick]

@[simp] theorem endCycle_stack (s : State) : (endCycle s).stack = s.stack := by
  unfold endCycle; split <;> simp [present, toneDecision, timerTick]

@[simp] theorem endCycle_mode (s : State) : (endCycle s).mode = s.mode := by
  unfold endCycle; split <;> simp [present, toneDecision, timerTick]

@[simp] theorem endCycle_fb (s : State) : (endCycle s).fb = s.fb := by
  unfold endCycle; split <;> simp [present, toneDecision, timerTick]

@[simp] theorem endCycle_waitReg (s : State) : (endCycle s).waitReg = s.waitReg := by
  unfold endCycle; split <;> simp [present, toneDecision, timerTick]

@[simp] theorem endCycle_keyPrev (s : State) : (endCycle s).keyPrev = s.keyPrev := by
  unfold endCycle; split <;> simp [present, toneDecision, timerTick]

@[simp] theorem endCycle_reports (s : State) : (endCycle s).reports = s.reports := by
  unfold endCycle; split <;> simp [present, toneDecision, timerTick]

@[simp] theorem endCycle_cfg (s : State) : (endCycle s).cfg = s.cfg := by
  unfold endCycle; split <;> simp [present, toneDecision, timerTick]

@[simp] theorem endCycle_phase (s : State) : (endCycle s).env.phase = .idle := by
  unfold endCycle; split <;> simp [present, toneDecision, timerTick]

@[simp] theorem endCycle_ops (s : State) : (endCycle s).env.ops = s.env.ops := by
  unfold endCycle; split <;> simp [present, toneDecision, timerTick]

theorem driverLoad_ok {p : List Byte} (s : State) (h : p.length ≤ 3584) :
    driverLoad p s = setReply (some .ok) (setPc 0x200 (storeBytes progBase p s)) := by
  have : ¬ progMax < p.length := by unfold progMax; omega
  unfold driverLoad; rw [if_neg this]

theorem driverLoad_error {p : List Byte} (s : State) (h : 3584 < p.length) :
    driverLoad p s = setReply (some (.loadError p.length)) s := by
  have : progMax < p.length := by unfold progMax; omega
  unfold driverLoad; rw [if_pos this]

/-- A run's first step. -/
theorem run_succ {s t : State} (k : Nat) (h : step s = .next t) :
    Sys2Proof.core.run (k + 1) s = Sys2Proof.core.run k t := by
  have h' : Sys2Proof.core.step s = .next t := h
  simp only [Host.Core.run, h']

theorem run_zero (s : State) : Sys2Proof.core.run 0 s = .next s := rfl

/-- A timer counts down by 1 and stops at 0 (R98). -/
theorem countDown_toNat (b : Byte) : (countDown b).toNat = b.toNat - 1 := by
  unfold countDown
  split
  · next h => subst h; rfl
  · next h =>
    have h1 : b.toNat ≠ 0 := fun e => h (BitVec.eq_of_toNat_eq (by simpa using e))
    have := b.isLt
    rw [BitVec.toNat_sub]; simp; omega

/-- The lowest key of a set is the least member, and a set with none has none (R96). -/
theorem lowestKey_eq_some (k : KeySet) (j : Nat) :
    lowestKey k = some j ↔ k.getLsbD j = true ∧ j < 16 ∧ ∀ i < j, k.getLsbD i = false := by
  unfold lowestKey
  rw [List.find?_range_eq_some]
  simp

theorem lowestKey_eq_none (k : KeySet) : lowestKey k = none ↔ ∀ j < 16, k.getLsbD j = false := by
  unfold lowestKey
  rw [List.find?_range_eq_none]
  simp

/-- The font is 80 bytes (R6: FONT_BYTES). -/
theorem length_font (c : Config) : c.font.length = 80 := by
  have h : ∀ l : List Glyph, (l.flatMap Vector.toList).length = 5 * l.length := by
    intro l
    induction l with
    | nil => rfl
    | cons g l ih => rw [List.flatMap_cons, List.length_append, ih]; simp; omega
  rw [Config.font, List.length_append, h]; simp

end Sys2Proof.Machine
end

