-- ==== Sys2Proof/Laws/Encoding.lean ====
section
/-! SUPPORT. The fields of a word as numbers, and the fields of each format's words. -/

namespace Sys2Proof

theorem fieldF_toNat (w : Word) : (fieldF w).toNat = w.toNat / 4096 := by
  simp only [fieldF, BitVec.extractLsb'_toNat, Nat.shiftRight_eq_div_pow]
  have := w.isLt
  omega

theorem fieldX_val (w : Word) : (fieldX w).val = w.toNat / 256 % 16 := by
  simp [fieldX, Nat.shiftRight_eq_div_pow]

theorem fieldY_val (w : Word) : (fieldY w).val = w.toNat / 16 % 16 := by
  simp [fieldY, Nat.shiftRight_eq_div_pow]

theorem fieldN_val (w : Word) : fieldN w = w.toNat % 16 := by
  simp [fieldN, BitVec.extractLsb'_toNat]

theorem fieldKK_toNat (w : Word) : (fieldKK w).toNat = w.toNat % 256 := by
  simp [fieldKK, BitVec.extractLsb'_toNat]

theorem fieldNNN_toNat (w : Word) : (fieldNNN w).toNat = w.toNat % 4096 := by
  simp [fieldNNN, BitVec.extractLsb'_toNat]

/-- Concatenation as arithmetic: the left part holds the high bits (R8). -/
theorem toNat_append_eq {n m : Nat} (a : BitVec n) (b : BitVec m) : (a ++ b).toNat = a.toNat * 2 ^ m + b.toNat := by
  rw [BitVec.toNat_append, Nat.shiftLeft_eq, Nat.mul_comm, ← Nat.two_pow_add_eq_or_of_lt b.isLt]

theorem wordOf_toNat (hi lo : Byte) : (wordOf hi lo).toNat = hi.toNat * 256 + lo.toNat :=
  toNat_append_eq hi lo

@[simp] theorem wordOf_bytes (w : Word) : wordOf (highByte w) (lowByte w) = w := by
  apply BitVec.eq_of_toNat_eq
  have := w.isLt
  rw [wordOf_toNat, highByte, lowByte, BitVec.extractLsb'_toNat, BitVec.extractLsb'_toNat, Nat.shiftRight_eq_div_pow]
  omega

theorem formatA_toNat (f : BitVec 4) (nnn : Addr12) : (formatA f nnn).toNat = f.toNat * 4096 + nnn.toNat :=
  toNat_append_eq f nnn

theorem formatXK_toNat (f : BitVec 4) (x : RegNum) (kk : Byte) :
    (formatXK f x kk).toNat = f.toNat * 4096 + (x.val * 256 + kk.toNat) := by
  show (f ++ (regBits x ++ kk)).toNat = _
  rw [toNat_append_eq, toNat_append_eq]; rfl

theorem formatXS_toNat (f : BitVec 4) (x : RegNum) (sub : Byte) :
    (formatXS f x sub).toNat = f.toNat * 4096 + (x.val * 256 + sub.toNat) :=
  formatXK_toNat f x sub

theorem formatXY_toNat (f : BitVec 4) (x y : RegNum) (n : BitVec 4) :
    (formatXY f x y n).toNat = f.toNat * 4096 + (x.val * 256 + (y.val * 16 + n.toNat)) := by
  show (f ++ (regBits x ++ (regBits y ++ n))).toNat = _
  rw [toNat_append_eq, toNat_append_eq, toNat_append_eq]; rfl

/-! ### The fields of a format's words (R72) -/

@[simp] theorem fieldF_formatA (f : BitVec 4) (nnn : Addr12) : fieldF (formatA f nnn) = f := by
  apply BitVec.eq_of_toNat_eq
  have := nnn.isLt
  rw [fieldF_toNat, formatA_toNat]; omega

@[simp] theorem fieldNNN_formatA (f : BitVec 4) (nnn : Addr12) : fieldNNN (formatA f nnn) = nnn := by
  apply BitVec.eq_of_toNat_eq
  have := nnn.isLt
  rw [fieldNNN_toNat, formatA_toNat]; omega

@[simp] theorem fieldF_formatXK (f : BitVec 4) (x : RegNum) (kk : Byte) : fieldF (formatXK f x kk) = f := by
  apply BitVec.eq_of_toNat_eq
  have := kk.isLt
  rw [fieldF_toNat, formatXK_toNat]; omega

@[simp] theorem fieldX_formatXK (f : BitVec 4) (x : RegNum) (kk : Byte) : fieldX (formatXK f x kk) = x := by
  apply Fin.ext
  have := kk.isLt
  rw [fieldX_val, formatXK_toNat]; omega

@[simp] theorem fieldKK_formatXK (f : BitVec 4) (x : RegNum) (kk : Byte) : fieldKK (formatXK f x kk) = kk := by
  apply BitVec.eq_of_toNat_eq
  have := kk.isLt
  rw [fieldKK_toNat, formatXK_toNat]; omega

@[simp] theorem fieldF_formatXS (f : BitVec 4) (x : RegNum) (sub : Byte) : fieldF (formatXS f x sub) = f :=
  fieldF_formatXK f x sub

@[simp] theorem fieldX_formatXS (f : BitVec 4) (x : RegNum) (sub : Byte) : fieldX (formatXS f x sub) = x :=
  fieldX_formatXK f x sub

@[simp] theorem fieldKK_formatXS (f : BitVec 4) (x : RegNum) (sub : Byte) : fieldKK (formatXS f x sub) = sub :=
  fieldKK_formatXK f x sub

@[simp] theorem fieldF_formatXY (f : BitVec 4) (x y : RegNum) (n : BitVec 4) : fieldF (formatXY f x y n) = f := by
  apply BitVec.eq_of_toNat_eq
  have := n.isLt
  rw [fieldF_toNat, formatXY_toNat]; omega

@[simp] theorem fieldX_formatXY (f : BitVec 4) (x y : RegNum) (n : BitVec 4) : fieldX (formatXY f x y n) = x := by
  apply Fin.ext
  have := n.isLt
  rw [fieldX_val, formatXY_toNat]; omega

@[simp] theorem fieldY_formatXY (f : BitVec 4) (x y : RegNum) (n : BitVec 4) : fieldY (formatXY f x y n) = y := by
  apply Fin.ext
  have := n.isLt
  rw [fieldY_val, formatXY_toNat]; omega

@[simp] theorem fieldN_formatXY (f : BitVec 4) (x y : RegNum) (n : BitVec 4) : fieldN (formatXY f x y n) = n.toNat := by
  have := n.isLt
  rw [fieldN_val, formatXY_toNat]; omega

end Sys2Proof
end

