-- ==== Sys2Proof/Laws/Operands.lean ====
section
/-! SUPPORT. The operand forms and the shared updates: their values as numbers, and the frame of each. -/

namespace Sys2Proof.Machine

/-! ### Widened immediates -/

@[simp] theorem zextAddr_toNat (nnn : Addr12) : (zextAddr nnn).toNat = nnn.toNat := by
  simp [zextAddr]; omega

@[simp] theorem zextByte_toNat (b : Byte) : (zextByte b).toNat = b.toNat := by
  simp [zextByte]; omega

/-- nnn + V0 is at most 4350, so nothing wraps (R117). -/
theorem indexedTarget_toNat (nnn : Addr12) (s : State) :
    (indexedTarget nnn s).toNat = nnn.toNat + (getV s V0).toNat := by
  have h1 := nnn.isLt
  have h2 := (getV s V0).isLt
  unfold indexedTarget
  rw [BitVec.toNat_add, zextAddr_toNat, zextByte_toNat]
  omega

/-- The glyph address is at most 1275, so nothing wraps (R152). -/
theorem glyphAddress_toNat (b : Byte) : (glyphAddress b).toNat = 5 * b.toNat := by
  have := b.isLt
  rw [glyphAddress, BitVec.toNat_ofNat]
  omega

/-! ### Block operands -/

@[simp] theorem length_regsUpTo (x : RegNum) (s : State) : (regsUpTo x s).length = x.val + 1 := by
  simp [regsUpTo]

theorem getD_regsUpTo (x : RegNum) (s : State) {r : RegNum} (h : r ≤ x) : (regsUpTo x s).getD r.val 0 = getV s r := by
  have h' : r.val ≤ x.val := h
  rw [List.getD_eq_getElem _ _ (by rw [length_regsUpTo]; omega)]
  simp [regsUpTo, getV]

@[simp] theorem length_decimalDigits (b : Byte) : (decimalDigits b).length = 3 := rfl

/-- What the registers are after a block load (R155). -/
theorem getV_loadFrom (s : State) (b n : Nat) (r : RegNum) :
    getV { s with v := loadFrom s.mem b n s.v } r = if r.val < n then readMem s (b + r.val) else getV s r :=
  getElem_loadFrom _ _ _ _ r.val r.isLt

/-! ### Frames of the shared updates -/

theorem onlyRegsChange_setV (x : RegNum) (b : Byte) (s : State) : OnlyRegsChange (fun r => r = x) s (setV x b s) :=
  ⟨fun _ h => getV_setV_other _ _ h, fun _ => rfl, rfl⟩

theorem onlyRegsChange_setResultAndFlag (x : RegNum) (b : Byte) (f : Bool) (s : State) :
    OnlyRegsChange (fun r => r = x ∨ r = VF) s (setResultAndFlag x b f s) :=
  ⟨fun _ h => getV_setResultAndFlag_other _ _ _ (fun e => h (.inl e)) (fun e => h (.inr e)), fun _ => rfl, rfl⟩

theorem onlyPcChanges_setPc (a : Word) (s : State) : OnlyPcChanges s (setPc a s) :=
  ⟨fun _ => rfl, fun _ => rfl, rfl⟩

theorem onlyPcChanges_skipIf (c : Bool) (s : State) : OnlyPcChanges s (skipIf c s) := by
  cases c <;> exact ⟨fun _ => rfl, fun _ => rfl, rfl⟩

theorem onlyIChanges_setI (a : Word) (s : State) : OnlyIChanges s (setI a s) :=
  ⟨fun _ => rfl, fun _ => rfl, rfl⟩

theorem onlyBytesChange_storeBytes (b : Nat) (bs : List Byte) (s : State) :
    OnlyBytesChange b bs.length s (storeBytes b bs s) :=
  ⟨fun _ => rfl, fun a h => by rw [readMem_storeBytes, if_neg h], rfl⟩

/-! ### The sprite as a whole -/

/-- What a sprite of at most 15 rows does to the framebuffer, and when it collides (R175). -/
theorem drawSprite_toggled (x y : RegNum) (n : Nat) (s : State) (hn : n ≤ 15) :
    Toggled (SpriteCovers x y n s) (s.fb, false) (drawSprite x y n s) := by
  have hl := Memory.length_readBytes s.mem (memBase s) n
  refine Toggled.congr ?_ (drawRows_toggled _ _ _ (by omega) _)
  intro cx cy
  constructor
  · rintro ⟨r, h, col, hc, hb, h1, h2⟩
    refine ⟨r, hl ▸ h, col, hc, ?_, h1, h2⟩
    rw [List.getD_eq_getElem _ _ h, Memory.getElem_readBytes] at hb
    exact hb
  · rintro ⟨r, h, col, hc, hb, h1, h2⟩
    refine ⟨r, hl.symm ▸ h, col, hc, ?_, h1, h2⟩
    rw [List.getD_eq_getElem _ _ (hl.symm ▸ h), Memory.getElem_readBytes]
    exact hb

end Sys2Proof.Machine
end

