-- ==== Sys2Proof/Laws/Exec.lean ====
section
/-! SUPPORT. What one instruction can do, seen from each field of the state: which instructions write the field at all.
Later proofs cite these instead of splitting over all 34 meanings again. -/

namespace Sys2Proof.Machine

/-! ### Updates of a field no answer of the environment depends on -/

theorem afterKeySample_setPhase (p : Phase) (s : State) :
    afterKeySample (setPhase p s) = setPhase p (afterKeySample s) := by
  cases h : s.env.keysIn with
  | nil => rw [afterKeySample_nil h, afterKeySample_nil (s := setPhase p s) h]; rfl
  | cons k ks => rw [afterKeySample_cons h, afterKeySample_cons (s := setPhase p s) h]; rfl

theorem afterByteDraw_setPhase (p : Phase) (s : State) :
    afterByteDraw (setPhase p s) = setPhase p (afterByteDraw s) := by
  cases h : s.env.bytesIn with
  | nil => rw [afterByteDraw_nil h, afterByteDraw_nil (s := setPhase p s) h]; rfl
  | cons b bs => rw [afterByteDraw_cons h, afterByteDraw_cons (s := setPhase p s) h]; rfl

theorem afterKeyQuery_setPhase (k : Nat) (p : Phase) (s : State) :
    afterKeyQuery k (setPhase p s) = setPhase p (afterKeyQuery k s) := by
  unfold afterKeyQuery
  split
  · exact afterKeySample_setPhase p s
  · rfl

theorem skipIf_setPhase (c : Bool) (p : Phase) (s : State) : skipIf c (setPhase p s) = setPhase p (skipIf c s) := by
  cases c <;> rfl

/-- A cause ends the cycle, so the phase it was taken in leaves no trace. -/
theorem raise_setPhase (c : Cause) (p : Phase) (s : State) : raise c (setPhase p s) = raise c s := rfl

/-! ### The environment's queue of operations -/

@[simp] theorem keyPoll_ops (s : State) : (keyPoll s).env.ops = s.env.ops := by
  unfold keyPoll; split <;> simp

@[simp] theorem keyPoll_mem (s : State) : (keyPoll s).mem = s.mem := by
  unfold keyPoll; split <;> simp

@[simp] theorem keyPoll_fb (s : State) : (keyPoll s).fb = s.fb := by
  unfold keyPoll; split <;> simp

@[simp] theorem keyPoll_stack (s : State) : (keyPoll s).stack = s.stack := by
  unfold keyPoll; split <;> simp

@[simp] theorem keyPoll_cfg (s : State) : (keyPoll s).cfg = s.cfg := by
  unfold keyPoll; split <;> simp

/-! ### One field at a time -/

/-- Only `00E0` and `Dxyn` write the framebuffer. -/
theorem exec_fb {i : Instr} {s t : State} (h : exec i s = .next t) (h1 : i ≠ .cls)
    (h2 : ∀ x y n, i ≠ .drw x y n) : t.fb = s.fb := by
  cases i
  case cls => exact absurd rfl h1
  case drw x y n => exact absurd rfl (h2 x y n)
  all_goals first
    | (rcases guarded_cases h with ⟨e, _, rfl⟩ | ⟨_, rfl⟩ <;> rfl)
    | (cases h; first | rfl | simp)

/-- Only `Fx33` and `Fx55` write memory. -/
theorem exec_mem {i : Instr} {s t : State} (h : exec i s = .next t) (h1 : ∀ x, i ≠ .ldBVx x)
    (h2 : ∀ x, i ≠ .storeRegs x) : t.mem = s.mem := by
  cases i
  case ldBVx x => exact absurd rfl (h1 x)
  case storeRegs x => exact absurd rfl (h2 x)
  all_goals first
    | (rcases guarded_cases h with ⟨e, _, rfl⟩ | ⟨_, rfl⟩ <;> rfl)
    | (cases h; first | rfl | simp)

/-- Only `00EE` and `2nnn` write the stack. -/
theorem exec_stack {i : Instr} {s t : State} (h : exec i s = .next t) (h1 : i ≠ .ret)
    (h2 : ∀ nnn, i ≠ .call nnn) : t.stack = s.stack := by
  cases i
  case ret => exact absurd rfl h1
  case call nnn => exact absurd rfl (h2 nnn)
  all_goals first
    | (rcases guarded_cases h with ⟨e, _, rfl⟩ | ⟨_, rfl⟩ <;> rfl)
    | (cases h; first | rfl | simp)

/-- No instruction touches the operations the driver has queued. -/
theorem exec_ops {i : Instr} {s t : State} (h : exec i s = .next t) : t.env.ops = s.env.ops := by
  cases i
  all_goals first
    | (rcases guarded_cases h with ⟨e, _, rfl⟩ | ⟨_, rfl⟩ <;> rfl)
    | (cases h; first | rfl | simp)

/-- An instruction completes or takes a cause of the state it started in. -/
theorem exec_mode {i : Instr} {s t : State} (h : exec i s = .next t) :
    (∃ c, t = raise c s) ∨ t.mode = s.mode ∨ t.mode = .waitingForKey := by
  cases i
  all_goals first
    | (rcases guarded_cases h with ⟨e, _, rfl⟩ | ⟨_, rfl⟩ <;> first | exact .inl ⟨_, rfl⟩ | exact .inr (.inl rfl))
    | (cases h; first | exact .inr (.inl rfl) | exact .inr (.inr rfl) | exact .inr (.inl (by simp)))

end Sys2Proof.Machine
end

