-- ==== Sys2Proof/Laws/PerInstr.lean ====
section
/-! SUPPORT. Facts about every instruction as syntax, one lemma per constructor. The family EncodesInItsRow: an
instruction's word matches its own row of the opcode map (R75). -/

namespace Sys2Proof

/-- Masking a word of format A, XK or XYN by 0xF000 leaves its family. -/
theorem and_F000 (w : Word) : w &&& (0xF000 : Word) = (fieldF w ++ (0 : BitVec 12) : Word) := by
  apply BitVec.eq_of_getLsbD_eq
  intro j hj
  simp only [fieldF, BitVec.getLsbD_and, BitVec.getLsbD_append, BitVec.getLsbD_extractLsb']
  interval_cases j <;> simp

/-- Masking by 0xF00F leaves the family and the last nibble. -/
theorem and_F00F (w : Word) : w &&& (0xF00F : Word) = (fieldF w ++ ((0 : BitVec 8) ++ w.extractLsb' 0 4) : Word) := by
  apply BitVec.eq_of_getLsbD_eq
  intro j hj
  simp only [fieldF, BitVec.getLsbD_and, BitVec.getLsbD_append, BitVec.getLsbD_extractLsb']
  interval_cases j <;> simp

/-- Masking by 0xF0FF leaves the family and the last byte. -/
theorem and_F0FF (w : Word) : w &&& (0xF0FF : Word) = (fieldF w ++ ((0 : BitVec 4) ++ fieldKK w) : Word) := by
  apply BitVec.eq_of_getLsbD_eq
  intro j hj
  simp only [fieldF, fieldKK, BitVec.getLsbD_and, BitVec.getLsbD_append, BitVec.getLsbD_extractLsb']
  interval_cases j <;> simp

theorem nibble_formatXY (f : BitVec 4) (x y : RegNum) (n : BitVec 4) :
    (formatXY f x y n).extractLsb' 0 4 = n := by
  apply BitVec.eq_of_toNat_eq
  exact fieldN_formatXY f x y n

end Sys2Proof

namespace Sys2Proof.Laws.EncodesInItsRow

open Sys2Proof

/-- The word of an instruction matches its row of the opcode map (R75). -/
def Statement (i : Instr) : Prop := encodeWord i &&& i.row.mask = i.row.pattern

theorem cls : Statement .cls := by unfold Statement; decide

theorem ret : Statement .ret := by unfold Statement; decide

theorem jp (nnn : Addr12) : Statement (.jp nnn) := by
  simp only [Statement, encodeWord, Instr.row, and_F000, fieldF_formatA]; rfl

theorem call (nnn : Addr12) : Statement (.call nnn) := by
  simp only [Statement, encodeWord, Instr.row, and_F000, fieldF_formatA]; rfl

theorem seImm (x : RegNum) (kk : Byte) : Statement (.seImm x kk) := by
  simp only [Statement, encodeWord, Instr.row, and_F000, fieldF_formatXK]; rfl

theorem sneImm (x : RegNum) (kk : Byte) : Statement (.sneImm x kk) := by
  simp only [Statement, encodeWord, Instr.row, and_F000, fieldF_formatXK]; rfl

theorem seReg (x y : RegNum) : Statement (.seReg x y) := by
  simp only [Statement, encodeWord, Instr.row, and_F00F, fieldF_formatXY, nibble_formatXY]; rfl

theorem ldImm (x : RegNum) (kk : Byte) : Statement (.ldImm x kk) := by
  simp only [Statement, encodeWord, Instr.row, and_F000, fieldF_formatXK]; rfl

theorem addImm (x : RegNum) (kk : Byte) : Statement (.addImm x kk) := by
  simp only [Statement, encodeWord, Instr.row, and_F000, fieldF_formatXK]; rfl

theorem ldReg (x y : RegNum) : Statement (.ldReg x y) := by
  simp only [Statement, encodeWord, Instr.row, and_F00F, fieldF_formatXY, nibble_formatXY]; rfl

theorem orReg (x y : RegNum) : Statement (.orReg x y) := by
  simp only [Statement, encodeWord, Instr.row, and_F00F, fieldF_formatXY, nibble_formatXY]; rfl

theorem andReg (x y : RegNum) : Statement (.andReg x y) := by
  simp only [Statement, encodeWord, Instr.row, and_F00F, fieldF_formatXY, nibble_formatXY]; rfl

theorem xorReg (x y : RegNum) : Statement (.xorReg x y) := by
  simp only [Statement, encodeWord, Instr.row, and_F00F, fieldF_formatXY, nibble_formatXY]; rfl

theorem addReg (x y : RegNum) : Statement (.addReg x y) := by
  simp only [Statement, encodeWord, Instr.row, and_F00F, fieldF_formatXY, nibble_formatXY]; rfl

theorem subReg (x y : RegNum) : Statement (.subReg x y) := by
  simp only [Statement, encodeWord, Instr.row, and_F00F, fieldF_formatXY, nibble_formatXY]; rfl

theorem shr (x y : RegNum) : Statement (.shr x y) := by
  simp only [Statement, encodeWord, Instr.row, and_F00F, fieldF_formatXY, nibble_formatXY]; rfl

theorem subnReg (x y : RegNum) : Statement (.subnReg x y) := by
  simp only [Statement, encodeWord, Instr.row, and_F00F, fieldF_formatXY, nibble_formatXY]; rfl

theorem shl (x y : RegNum) : Statement (.shl x y) := by
  simp only [Statement, encodeWord, Instr.row, and_F00F, fieldF_formatXY, nibble_formatXY]; rfl

theorem sneReg (x y : RegNum) : Statement (.sneReg x y) := by
  simp only [Statement, encodeWord, Instr.row, and_F00F, fieldF_formatXY, nibble_formatXY]; rfl

theorem ldI (nnn : Addr12) : Statement (.ldI nnn) := by
  simp only [Statement, encodeWord, Instr.row, and_F000, fieldF_formatA]; rfl

theorem jpV0 (nnn : Addr12) : Statement (.jpV0 nnn) := by
  simp only [Statement, encodeWord, Instr.row, and_F000, fieldF_formatA]; rfl

theorem rnd (x : RegNum) (kk : Byte) : Statement (.rnd x kk) := by
  simp only [Statement, encodeWord, Instr.row, and_F000, fieldF_formatXK]; rfl

theorem drw (x y : RegNum) (n : Nat) : Statement (.drw x y n) := by
  simp only [Statement, encodeWord, Instr.row, and_F000, fieldF_formatXY]; rfl

theorem skp (x : RegNum) : Statement (.skp x) := by
  simp only [Statement, encodeWord, Instr.row, and_F0FF, fieldF_formatXS, fieldKK_formatXS]; rfl

theorem sknp (x : RegNum) : Statement (.sknp x) := by
  simp only [Statement, encodeWord, Instr.row, and_F0FF, fieldF_formatXS, fieldKK_formatXS]; rfl

theorem ldVxDt (x : RegNum) : Statement (.ldVxDt x) := by
  simp only [Statement, encodeWord, Instr.row, and_F0FF, fieldF_formatXS, fieldKK_formatXS]; rfl

theorem ldVxKey (x : RegNum) : Statement (.ldVxKey x) := by
  simp only [Statement, encodeWord, Instr.row, and_F0FF, fieldF_formatXS, fieldKK_formatXS]; rfl

theorem ldDtVx (x : RegNum) : Statement (.ldDtVx x) := by
  simp only [Statement, encodeWord, Instr.row, and_F0FF, fieldF_formatXS, fieldKK_formatXS]; rfl

theorem ldStVx (x : RegNum) : Statement (.ldStVx x) := by
  simp only [Statement, encodeWord, Instr.row, and_F0FF, fieldF_formatXS, fieldKK_formatXS]; rfl

theorem addIVx (x : RegNum) : Statement (.addIVx x) := by
  simp only [Statement, encodeWord, Instr.row, and_F0FF, fieldF_formatXS, fieldKK_formatXS]; rfl

theorem ldFVx (x : RegNum) : Statement (.ldFVx x) := by
  simp only [Statement, encodeWord, Instr.row, and_F0FF, fieldF_formatXS, fieldKK_formatXS]; rfl

theorem ldBVx (x : RegNum) : Statement (.ldBVx x) := by
  simp only [Statement, encodeWord, Instr.row, and_F0FF, fieldF_formatXS, fieldKK_formatXS]; rfl

theorem storeRegs (x : RegNum) : Statement (.storeRegs x) := by
  simp only [Statement, encodeWord, Instr.row, and_F0FF, fieldF_formatXS, fieldKK_formatXS]; rfl

theorem loadRegs (x : RegNum) : Statement (.loadRegs x) := by
  simp only [Statement, encodeWord, Instr.row, and_F0FF, fieldF_formatXS, fieldKK_formatXS]; rfl

end Sys2Proof.Laws.EncodesInItsRow
end

