-- ==== Sys2Proof/Tests/Slice0.lean ====
section
/-! SUPPORT. Tests: words written out from the spec's encodings, one-step vectors with the results spec
95_test_vectors.md gives (its rows are named V-… in the comments), and a witness for the hypotheses of every
statement. -/

namespace Sys2Proof.Tests

open Sys2Proof Sys2Proof.Machine

/-! ### Helpers

The theorems below are checked one after the other: many at once ask for more threads than the check's memory limit
gives. -/

set_option Elab.async false

/-- Registers set by number. -/
def regs (l : List (Nat × Nat)) (s : State) : State :=
  l.foldl (fun s p => setV (Fin.ofNat 16 p.1) (BitVec.ofNat 8 p.2) s) s

/-- Bytes stored from an address. -/
def poke (a : Nat) (bs : List Nat) (s : State) : State := storeBytes a (bs.map (BitVec.ofNat 8)) s

/-- The answer of one outcome; a stop would answer the reset state. -/
def answer (o : Outcome) : State :=
  match o with
  | .next t => t
  | .fault _ => State.reset
  | .refused _ => State.reset

/-- One step with the word `w` placed where the machine fetches. -/
def after (w : Nat) (s : State) : State := answer (step (s.withFetchWord 16 w))

def reg (s : State) (r : Nat) : Nat := (getV s (Fin.ofNat 16 r)).toNat
def peek (s : State) (a : Nat) : Nat := (readMem s a).toNat
def at0 (pc : Nat) : State := setPc (BitVec.ofNat 16 pc) State.reset
def withI (a : Nat) (s : State) : State := setI (BitVec.ofNat 16 a) s
def keys (k : Nat) (s : State) : State := { s with env := { s.env with keysIn := [BitVec.ofNat 16 k] } }
def byteIn (b : Nat) (s : State) : State := { s with env := { s.env with bytesIn := [BitVec.ofNat 8 b] } }
def issue (l : List DriverOp) (s : State) : State := setOps l s
def inBatch (n : Nat) (s : State) : State := setPhase (.batch n) s
def depth (d : Nat) (s : State) : State := { s with cfg := { s.cfg with stackDepth := some d } }

/-- The lit cells as (column, row), in row-major order. -/
def lit (s : State) : List (Nat × Nat) :=
  ((rowMajor s.fb).zipIdx.filter Prod.fst).map fun c => (c.2 % 64, c.2 / 64)

/-! ### Well-formedness: the one check, and a term it refuses (R72: n has 4 bits) -/

theorem test_wellFormed_refuses_a_long_sprite : (Instr.drw 0 0 16).wellFormed = false := by decide
theorem test_wellFormed_accepts_the_longest : (Instr.drw 0 0 15).wellFormed = true := by decide

/-! ### Decoding, words bit by bit (R72, R75) -/

theorem test_decode_family0 : decodeWord 0b0000_0000_1110_0000 = some .cls ∧
    decodeWord 0b0000_0000_1110_1110 = some .ret := by decide
theorem test_decode_transfer : decodeWord 0b0001_0010_0011_0100 = some (.jp 0x234) ∧
    decodeWord 0b0010_1010_1011_1100 = some (.call 0xABC) ∧
    decodeWord 0b1011_1111_1111_1111 = some (.jpV0 0xFFF) := by decide
theorem test_decode_skips : decodeWord 0b0011_1111_0000_0001 = some (.seImm 15 0x01) ∧
    decodeWord 0b0100_1010_0000_0111 = some (.sneImm 10 0x07) ∧
    decodeWord 0b0101_0001_0010_0000 = some (.seReg 1 2) ∧
    decodeWord 0b1001_0001_0010_0000 = some (.sneReg 1 2) := by decide
theorem test_decode_immediates : decodeWord 0b0110_0001_0000_0011 = some (.ldImm 1 0x03) ∧
    decodeWord 0b0111_1111_1000_0000 = some (.addImm 15 0x80) ∧
    decodeWord 0b1100_0011_0000_1111 = some (.rnd 3 0x0F) := by decide
theorem test_decode_alu : decodeWord 0b1000_0001_0010_0000 = some (.ldReg 1 2) ∧
    decodeWord 0b1000_0001_0010_0001 = some (.orReg 1 2) ∧ decodeWord 0b1000_0001_0010_0010 = some (.andReg 1 2) ∧
    decodeWord 0b1000_0001_0010_0011 = some (.xorReg 1 2) ∧ decodeWord 0b1000_0001_0010_0100 = some (.addReg 1 2) ∧
    decodeWord 0b1000_0001_0010_0101 = some (.subReg 1 2) ∧ decodeWord 0b1000_0001_0010_0110 = some (.shr 1 2) ∧
    decodeWord 0b1000_0001_0010_0111 = some (.subnReg 1 2) ∧ decodeWord 0b1000_0001_0010_1110 = some (.shl 1 2) := by
  decide
theorem test_decode_index : decodeWord 0b1010_0011_0000_0000 = some (.ldI 0x300) ∧
    decodeWord 0b1111_0011_0001_1110 = some (.addIVx 3) ∧ decodeWord 0b1111_1010_0010_1001 = some (.ldFVx 10) ∧
    decodeWord 0b1111_0100_0011_0011 = some (.ldBVx 4) ∧ decodeWord 0b1111_0010_0101_0101 = some (.storeRegs 2) ∧
    decodeWord 0b1111_0010_0110_0101 = some (.loadRegs 2) := by decide
theorem test_decode_display : decodeWord 0b1101_0001_0010_1111 = some (.drw 1 2 15) := by decide
theorem test_decode_timers_and_keys : decodeWord 0b1111_0110_0000_0111 = some (.ldVxDt 6) ∧
    decodeWord 0b1111_0101_0000_1010 = some (.ldVxKey 5) ∧ decodeWord 0b1111_1010_0001_0101 = some (.ldDtVx 10) ∧
    decodeWord 0b1111_0100_0001_1000 = some (.ldStVx 4) ∧ decodeWord 0b1110_0101_1001_1110 = some (.skp 5) ∧
    decodeWord 0b1110_0101_1010_0001 = some (.sknp 5) := by decide
/-- V-DEC: every word the spec lists as unrecognized. -/
theorem test_decode_unrecognized : (([0x0000, 0x00E1, 0x0123, 0x5121, 0x9121, 0x8128, 0x812F, 0xE19F, 0xE1A0, 0xF100,
    0xF175, 0xF1FF] : List Word).all fun w => (decodeWord w).isNone) = true := by decide
/-- R52: the byte at the lower address is the high one; a cut-off sequence is refused by name. -/
theorem test_decode_bytes : decode [0x60, 0x05, 0x61] = .ok (.ldImm 0 0x05, [0x61]) ∧
    decode [0x60] = .error (.tooShort 1) ∧ decode [0x51, 0x21] = .error (.unrecognized 0x5121) := ⟨rfl, rfl, rfl⟩
theorem test_table_word : decodeTableWord 16 0x8014 = some (.addReg 0 1) := by decide

/-! ### One step: control transfer (V-CTL, V-FETCH) -/

theorem test_jp : (after 0x1208 (at0 0x204)).pc = 0x208 := by decide +kernel
theorem test_jp_beyond : (after 0x1FFF State.reset).pc = 0xFFF := by decide +kernel
theorem test_call : (after 0x220C (at0 0x204)).pc = 0x20C ∧ (after 0x220C (at0 0x204)).stack = [0x206] := by
  decide +kernel
theorem test_call_overflow :
    (after 0x2300 (depth 2 (setStack [0x20A, 0x206] State.reset))).mode = .faulted .stackOverflow ∧
    (after 0x2300 (depth 2 (setStack [0x20A, 0x206] State.reset))).pc = 0x202 := by decide +kernel
theorem test_ret : (after 0x00EE (setStack [0x20A, 0x206] State.reset)).pc = 0x20A ∧
    (after 0x00EE (setStack [0x20A, 0x206] State.reset)).stack = [0x206] := by decide +kernel
theorem test_ret_underflow : (after 0x00EE State.reset).mode = .faulted .stackUnderflow ∧
    (after 0x00EE State.reset).pc = 0x202 := by decide +kernel
theorem test_se_imm : (after 0x3100 (regs [(1, 0)] State.reset)).pc = 0x204 ∧
    (after 0x3100 (regs [(1, 4)] State.reset)).pc = 0x202 := by decide +kernel
theorem test_sne_imm : (after 0x4A07 (regs [(10, 7)] State.reset)).pc = 0x202 ∧
    (after 0x4A07 (regs [(10, 8)] State.reset)).pc = 0x204 := by decide +kernel
theorem test_se_reg : (after 0x5120 (regs [(1, 7), (2, 7)] State.reset)).pc = 0x204 ∧
    (after 0x5120 (regs [(1, 7), (2, 8)] State.reset)).pc = 0x202 := by decide +kernel
theorem test_sne_reg : (after 0x9120 (regs [(1, 7), (2, 8)] State.reset)).pc = 0x204 ∧
    (after 0x9120 (regs [(1, 7), (2, 7)] State.reset)).pc = 0x202 := by decide +kernel
theorem test_jp_v0 : (after 0xB3FF (regs [(0, 0xFF), (3, 0x10)] State.reset)).pc = 0x4FE := by decide +kernel
theorem test_jp_v0_not_reduced : (after 0xBFFF (regs [(0, 1)] State.reset)).pc = 0x1000 := by decide +kernel
/-- V-FETCH 1, 2: 4094 is the last address a word can be fetched from. -/
theorem test_fetch_edge : reg (after 0x6A55 (at0 0xFFE)) 10 = 0x55 ∧ (after 0x6A55 (at0 0xFFE)).pc = 0x1000 ∧
    (answer (step (inBatch 1 (at0 0xFFF)))).mode = .faulted (.addressOutOfRange 4096) ∧
    (answer (step (inBatch 1 (at0 0x1100)))).mode = .faulted (.addressOutOfRange 4352) := by decide +kernel
/-- V-FETCH 4: an odd PC is legal. -/
theorem test_fetch_odd : reg (after 0x6A55 (at0 0x201)) 10 = 0x55 ∧ (after 0x6A55 (at0 0x201)).pc = 0x203 := by
  decide +kernel
/-- V-DEC: a word that matches nothing is reported and skipped. -/
theorem test_unrecognized : (after 0x5121 (regs [(1, 5), (2, 5)] State.reset)).reports = [⟨0x200, 0x5121⟩] ∧
    (after 0x5121 (regs [(1, 5), (2, 5)] State.reset)).pc = 0x202 := by decide +kernel

/-! ### One step: load, arithmetic, logic, shift, random (V-ALU) -/

theorem test_ld_imm : reg (after 0x6FAB State.reset) 15 = 0xAB := by decide +kernel
theorem test_add_imm_wraps : reg (after 0x7102 (regs [(1, 0xFF), (15, 0x77)] State.reset)) 1 = 0x01 ∧
    reg (after 0x7102 (regs [(1, 0xFF), (15, 0x77)] State.reset)) 15 = 0x77 := by decide +kernel
theorem test_ld_reg : reg (after 0x8010 (regs [(1, 0x2A)] State.reset)) 0 = 0x2A := by decide +kernel
theorem test_or : reg (after 0x8011 (regs [(0, 0xF0), (1, 0x0F), (15, 0x55)] State.reset)) 0 = 0xFF ∧
    reg (after 0x8011 (regs [(0, 0xF0), (1, 0x0F), (15, 0x55)] State.reset)) 15 = 0x55 := by decide +kernel
theorem test_and : reg (after 0x8012 (regs [(0, 0xF3), (1, 0x3C), (15, 0x55)] State.reset)) 0 = 0x30 ∧
    reg (after 0x8012 (regs [(0, 0xF3), (1, 0x3C), (15, 0x55)] State.reset)) 15 = 0x55 := by decide +kernel
theorem test_xor : reg (after 0x8013 (regs [(0, 0xFF), (1, 0x0F), (15, 0x55)] State.reset)) 0 = 0xF0 ∧
    reg (after 0x8013 (regs [(0, 0xFF), (1, 0x0F), (15, 0x55)] State.reset)) 15 = 0x55 := by decide +kernel
theorem test_add_carry : reg (after 0x8014 (regs [(0, 0xFF), (1, 0xFF)] State.reset)) 0 = 0xFE ∧
    reg (after 0x8014 (regs [(0, 0xFF), (1, 0xFF)] State.reset)) 15 = 1 := by decide +kernel
/-- V-ALU 16, 18: the flag survives as destination, and the old VF is the addend. -/
theorem test_add_vf : reg (after 0x8F14 (regs [(15, 0xFF), (1, 0x03)] State.reset)) 15 = 1 ∧
    reg (after 0x80F4 (regs [(0, 0xFF), (15, 0x01)] State.reset)) 0 = 0 ∧
    reg (after 0x80F4 (regs [(0, 0xFF), (15, 0x01)] State.reset)) 15 = 1 := by decide +kernel
theorem test_sub_borrow : reg (after 0x8015 (regs [(0, 0x03), (1, 0x05)] State.reset)) 0 = 0xFE ∧
    reg (after 0x8015 (regs [(0, 0x03), (1, 0x05), (15, 9)] State.reset)) 15 = 0 := by decide +kernel
/-- V-ALU 23, 21: strict at equality. -/
theorem test_sub_strict : reg (after 0x8015 (regs [(0, 7), (1, 7), (15, 9)] State.reset)) 15 = 0 ∧
    reg (after 0x8015 (regs [(0, 5), (1, 3)] State.reset)) 15 = 1 := by decide +kernel
theorem test_shr : reg (after 0x8016 (regs [(0, 0x05), (1, 0xAA)] State.reset)) 0 = 0x02 ∧
    reg (after 0x8016 (regs [(0, 0x05), (1, 0xAA)] State.reset)) 15 = 1 ∧
    reg (after 0x8016 (regs [(0, 0x05), (1, 0xAA)] State.reset)) 1 = 0xAA := by decide +kernel
theorem test_shr_vf : reg (after 0x8F06 (regs [(15, 0x02)] State.reset)) 15 = 0 := by decide +kernel
theorem test_subn : reg (after 0x8017 (regs [(0, 0x05), (1, 0x03), (15, 9)] State.reset)) 0 = 0xFE ∧
    reg (after 0x8017 (regs [(0, 0x05), (1, 0x03), (15, 9)] State.reset)) 15 = 0 := by decide +kernel
theorem test_subn_strict : reg (after 0x8017 (regs [(0, 7), (1, 7), (15, 9)] State.reset)) 15 = 0 ∧
    reg (after 0x8017 (regs [(0, 3), (1, 5)] State.reset)) 15 = 1 := by decide +kernel
theorem test_shl : reg (after 0x801E (regs [(0, 0x7F), (1, 0xFF), (15, 9)] State.reset)) 0 = 0xFE ∧
    reg (after 0x801E (regs [(0, 0x7F), (1, 0xFF), (15, 9)] State.reset)) 15 = 0 := by decide +kernel
theorem test_shl_out : reg (after 0x800E (regs [(0, 0x81)] State.reset)) 0 = 0x02 ∧
    reg (after 0x800E (regs [(0, 0x81)] State.reset)) 15 = 1 := by decide +kernel
theorem test_rnd : reg (after 0xC30F (byteIn 0xA7 State.reset)) 3 = 0x07 := by decide +kernel
theorem test_rnd_consumes : reg (after 0xC300 (regs [(3, 9)] (byteIn 0xFF State.reset))) 3 = 0 ∧
    (after 0xC300 (byteIn 0xFF State.reset)).env.bytesIn = [] := by decide +kernel

/-! ### One step: address register and memory transfer (V-IDX) -/

theorem test_ld_i : (after 0xAFFF State.reset).i = 0xFFF := by decide +kernel
theorem test_add_i : (after 0xF01E (withI 0xFFF (regs [(0, 1), (15, 0x55)] State.reset))).i = 0x1000 ∧
    reg (after 0xF01E (withI 0xFFF (regs [(0, 1), (15, 0x55)] State.reset))) 15 = 0x55 := by decide +kernel
theorem test_add_i_wraps : (after 0xF01E (withI 0xFFF0 (regs [(0, 0xFF)] State.reset))).i = 0x00EF := by decide +kernel
theorem test_ld_f : (after 0xFA29 (regs [(10, 0x0F)] State.reset)).i = 0x04B ∧
    (after 0xFA29 (regs [(10, 0xFF)] State.reset)).i = 0x4FB := by decide +kernel
/-- V-IDX 10: the last legal I. -/
theorem test_bcd : let t := after 0xF433 (withI 4093 (regs [(4, 123)] State.reset))
    peek t 4093 = 1 ∧ peek t 4094 = 2 ∧ peek t 4095 = 3 := by decide +kernel
theorem test_bcd_beyond : let t := after 0xF433 (withI 4094 (regs [(4, 123)] State.reset))
    t.mode = .faulted (.addressOutOfRange 4096) ∧ peek t 4094 = 0 ∧ t.pc = 0x202 := by decide +kernel
theorem test_store : let t := after 0xF255 (withI 0x303 (regs [(0, 2), (1, 3), (2, 4), (3, 9)] State.reset))
    peek t 0x302 = 0 ∧ peek t 0x303 = 2 ∧ peek t 0x304 = 3 ∧ peek t 0x305 = 4 ∧ peek t 0x306 = 0 ∧ t.i = 0x303 := by
  decide +kernel
/-- V-IDX 15: no byte of a transfer that runs off the end. -/
theorem test_store_beyond : let t := after 0xFF55 (withI 0xFF1 (regs [(0, 0x10)] State.reset))
    t.mode = .faulted (.addressOutOfRange 4096) ∧ peek t 0xFF1 = 0 := by decide +kernel
theorem test_load : let t := after 0xF265 (withI 0x300 (poke 0x300 [2, 3, 4] (regs [(3, 0x99)] State.reset)))
    reg t 0 = 2 ∧ reg t 1 = 3 ∧ reg t 2 = 4 ∧ reg t 3 = 0x99 ∧ t.i = 0x300 := by decide +kernel
theorem test_load_beyond : let t := after 0xF165 (withI 0xFFF (poke 0xFFF [0xAB] (regs [(0, 0x22)] State.reset)))
    t.mode = .faulted (.addressOutOfRange 4096) ∧ reg t 0 = 0x22 := by decide +kernel

/-! ### One step: display (V-DSP) -/

theorem test_cls : let t := after 0x00E0 (setFb (togglePixel 5 5 clearFb).1 (regs [(15, 1)] State.reset))
    lit t = [] ∧ reg t 15 = 1 := by decide +kernel
/-- V-DSP 1, 3. -/
theorem test_toggle : (togglePixel 64 32 clearFb).2 = false ∧ pixel (togglePixel 64 32 clearFb).1 0 0 = true ∧
    (togglePixel 255 255 (togglePixel 63 31 clearFb).1).2 = true := by decide +kernel
/-- V-DSP 6: a sprite wraps on both axes, pixel by pixel. -/
theorem test_drw_wraps :
    let t := after 0xD012 (withI 0x300 (poke 0x300 [0xC0, 0xC0] (regs [(0, 63), (1, 31), (15, 9)] State.reset)))
    lit t = [(0, 0), (63, 0), (0, 31), (63, 31)] ∧ reg t 15 = 0 := by decide +kernel
/-- V-DSP 7: the second sprite collides. -/
theorem test_drw_collides :
    let s := withI 0x300 (poke 0x300 [0xF0, 0x3C] State.reset)
    let t := after 0xD011 (setPc 0x200 (withI 0x301 (after 0xD011 s)))
    lit t = [(0, 0), (1, 0), (4, 0), (5, 0)] ∧ reg t 15 = 1 := by decide +kernel

/-! ### One step: timers and keys (V-TK) -/

theorem test_ld_vx_dt : let t := after 0xF607 (setDt 3 State.reset); reg t 6 = 3 ∧ t.dt = 3 := by decide +kernel
theorem test_ld_dt_vx : (after 0xFA15 (regs [(10, 3)] State.reset)).dt = 3 := by decide +kernel
theorem test_ld_st_vx : let t := after 0xF418 (regs [(4, 2)] State.reset); t.st = 2 ∧ t.tone = false := by
  decide +kernel
theorem test_skp : (after 0xE59E (keys 0x8000 (regs [(5, 15)] State.reset))).pc = 0x204 ∧
    (after 0xE59E (keys 0xFFFF (regs [(5, 16)] State.reset))).pc = 0x202 := by decide +kernel
theorem test_sknp : (after 0xE5A1 (keys 0x8000 (regs [(5, 15)] State.reset))).pc = 0x202 ∧
    (after 0xE5A1 (keys 0xFFFF (regs [(5, 16)] State.reset))).pc = 0x204 := by decide +kernel
theorem test_wait : let t := after 0xF50A (keys 0x0008 (regs [(5, 0xAA)] State.reset))
    t.waitReg = 5 ∧ t.keyPrev = 0x0008 ∧ t.mode = .waitingForKey ∧ t.pc = 0x202 ∧ reg t 5 = 0xAA := by decide +kernel
/-- V-TK 12, P5 cycle 4: a new key is captured, the lowest of two. -/
theorem test_poll : let t := answer (step (keys 0x0084 (issue [.cycle 0] (setMode .waitingForKey (setWaitReg 5
      (regs [(5, 0xAA)] State.reset))))))
    reg t 5 = 2 ∧ t.mode = .running := by decide +kernel
/-- V-TK 9, vv = 1: a sound timer of 1 never sounds. -/
theorem test_cycle_end : let t := answer (step (inBatch 0 (setSt 1 State.reset)))
    t.st = 0 ∧ t.tone = false ∧ t.presents = 1 := by decide +kernel

/-- R255, P7: a second cycle in Faulted hands the cause back and changes nothing. -/
theorem test_cycle_in_faulted : let s := setSt 5 (setMode (.faulted .stackUnderflow) (issue [.cycle 10] State.reset))
    let t := answer (step s)
    t.env.reply = some (.fatal .stackUnderflow) ∧ t.st = 5 ∧ t.presents = 0 ∧ t.pc = s.pc ∧ t.mode = s.mode := by
  decide +kernel

/-! ### The driver's operations (V-HOST) -/

theorem test_load_font : let t := answer (step (issue [.loadFont] State.reset))
    peek t 0 = 0xF0 ∧ peek t 1 = 0x90 ∧ peek t 0x4B = 0xF0 ∧ peek t 0x4C = 0x80 ∧ peek t 0x4F = 0x80 ∧
      peek t 0x50 = 0 := by decide +kernel
theorem test_load_program : let t := answer (step (issue [.load [0x12]] (at0 0x345)))
    peek t 0x200 = 0x12 ∧ t.pc = 0x200 ∧ t.env.reply = some .ok := by decide +kernel
theorem test_reset_leaves_faulted :
    (answer (step (issue [.reset] (setMode (.faulted .stackUnderflow) (at0 0x345))))) = State.reset := by decide +kernel

/-! ### Witnesses: for every statement with hypotheses, values that meet them, clause by clause at the edges -/

theorem witness_EncodedInstructionDecodesBack : (Instr.drw 15 0 15).wellFormed = true := by decide
theorem witness_DecodedWordEncodesBack : decodeWord 0xDF0F = some (.drw 15 0 15) := by decide
theorem witness_WordDecodesToARowExactlyWhenItMatches :
    (∃ row ∈ opcodeMap, (0x00E0 : Word) &&& row.mask = row.pattern) ∧
    ∀ row ∈ opcodeMap, (0x00E1 : Word) &&& row.mask ≠ row.pattern := by decide

/-- PC at the last address a word can be fetched from. -/
def running (bytes : List Nat) : State := inBatch 1 (poke 4094 bytes (at0 4094))

theorem witness_StepRunsTheDecodedInstruction : let s := running [0x6A, 0x55]
    s.env.phase = .batch (0 + 1) ∧ s.mode = .running ∧ s.pc.toNat + 2 ≤ 4096 ∧
    decodeWord (wordOf (readMem s s.pc.toNat) (readMem s (s.pc.toNat + 1))) = some (.ldImm 10 0x55) := by decide +kernel
theorem witness_UnrecognizedWordIsReportedAndSkipped : let s := running [0x51, 0x21]
    s.env.phase = .batch (0 + 1) ∧ s.mode = .running ∧ s.pc.toNat + 2 ≤ 4096 ∧
    0x5121 = wordOf (readMem s s.pc.toNat) (readMem s (s.pc.toNat + 1)) ∧ decodeWord 0x5121 = none := by decide +kernel
theorem witness_FetchBeyondMemoryTakesAddressOutOfRange : let s := inBatch 1 (at0 4095)
    s.env.phase = .batch (0 + 1) ∧ s.mode = .running ∧ 4094 < s.pc.toNat := by decide +kernel

/-- Between operations, with one to begin. -/
def ready (op : DriverOp) : State := issue [op] State.reset

theorem witness_SmallStepsComputeTheCycle : (ready (.cycle 3)).env.phase = .idle ∧
    (ready (.cycle 3)).env.ops = .cycle 3 :: [] := by decide +kernel
theorem witness_EveryStepKeepsTheInvariant : (ready .loadFont).Inv ∧
    step (ready .loadFont) = .next (driverStep (ready .loadFont)) :=
  ⟨⟨Memory.wf_nil, by simp [ready, issue, setOps, State.reset, Config.standard],
    by simp [ready, issue, setOps, State.reset], by simp [ready, issue, setOps, State.reset]⟩, rfl⟩
theorem witness_CanonicalMemoriesThatReadAlikeAreEqual :
    Memory.wf [(0, 1), (4095, 2)] ∧ ∀ a, Memory.read [(0, 1), (4095, 2)] a = Memory.read [(0, 1), (4095, 2)] a :=
  ⟨by decide, fun _ => rfl⟩
/-- Both ways a batch ends alive. -/
theorem witness_CycleEndTicksSoundsAndPresents :
    ((inBatch 0 State.reset).env.phase = .batch 0 ∧ (inBatch 0 State.reset).mode = .running) ∧
    (inBatch 3 (setMode .waitingForKey State.reset)).env.phase = .batch 3 ∧
    (inBatch 3 (setMode .waitingForKey State.reset)).mode = .waitingForKey := by decide +kernel
theorem witness_CycleBeginsItsBatch : let s := ready (.cycle 0)
    s.env.phase = .idle ∧ s.env.ops = .cycle 0 :: [] ∧ s.mode = .running := by decide +kernel

/-- A machine that waits, about to begin a cycle, with key 15 held before and `k` the next sample. -/
def waiting (k : Nat) : State := keys k (setKeyPrev 0x8000 (setMode .waitingForKey (ready (.cycle 1))))

/-- First clause: key 0 is new, and is the lowest. -/
theorem witness_KeyPollCaptures : let s := waiting 0x8001
    s.env.phase = .idle ∧ s.env.ops = .cycle 1 :: [] ∧ s.mode = .waitingForKey ∧
    (sampledKeys s).getLsbD (0 : Fin 16) = true ∧ s.keyPrev.getLsbD (0 : Fin 16) = false ∧
    ∀ j < (0 : Fin 16), (sampledKeys s).getLsbD j = true → s.keyPrev.getLsbD j = true := by decide +kernel
/-- Second clause: key 15 is held through, none is new. -/
theorem witness_KeyPollWaitsOn : let s := waiting 0x8000
    s.env.phase = .idle ∧ s.env.ops = .cycle 1 :: [] ∧ s.mode = .waitingForKey ∧
    ∀ k : Fin 16, (sampledKeys s).getLsbD k = true → s.keyPrev.getLsbD k = true := by decide +kernel
theorem witness_FaultedMachineIgnoresACycle : let s := setMode (.faulted .stackUnderflow) (ready (.cycle 1))
    s.env.phase = .idle ∧ s.env.ops = .cycle 1 :: [] ∧ s.mode = .faulted .stackUnderflow := by decide +kernel
theorem witness_OnlyResetLeavesFaulted : let s := setMode (.faulted .stackUnderflow) (ready .reset)
    s.mode = .faulted .stackUnderflow ∧ step s = .next (driverStep s) ∧
    (driverStep s).mode ≠ .faulted .stackUnderflow := ⟨rfl, rfl, by decide +kernel⟩
theorem witness_EmptyCyclesCountTheTimersDown : let s := setDt 1 (issue [.cycle 0, .cycle 0, .reset] State.reset)
    s.env.phase = .idle ∧ s.mode = .running ∧ s.env.ops = List.replicate 2 (.cycle 0) ++ [.reset] := by decide +kernel
theorem witness_ResetOperationRestoresTheResetState : (ready .reset).env.phase = .idle ∧
    (ready .reset).env.ops = .reset :: [] := by decide +kernel
/-- The longest program that fits, and one byte more (V-HOST 1, 2). -/
theorem witness_LoadStoresTheProgramOrAnswersLoadError (n : Nat) :
    (ready (.load (List.replicate n 0xAB))).env.phase = .idle ∧
    (ready (.load (List.replicate n 0xAB))).env.ops = .load (List.replicate n 0xAB) :: [] ∧
    (n = 3584 → (List.replicate n (0xAB : Byte)).length ≤ 3584) ∧
    (n = 3585 → 3584 < (List.replicate n (0xAB : Byte)).length) :=
  ⟨rfl, rfl, fun h => by rw [List.length_replicate, h], fun h => by rw [List.length_replicate, h]; omega⟩
theorem witness_LoadFontWritesTheGlyphs : (ready .loadFont).env.phase = .idle ∧
    (ready .loadFont).env.ops = .loadFont :: [] := by decide +kernel
theorem witness_BootLaysOutMemory :
    (issue [.reset, .loadFont, .load [0x12]] State.reset).env.phase = .idle ∧
    (issue [.reset, .loadFont, .load [0x12]] State.reset).env.ops = [.reset, .loadFont, .load [0x12]] ++ [] ∧
    (issue [.reset, .load [0x12], .loadFont] State.reset).env.ops = [.reset, .load [0x12], .loadFont] ++ [] := by
  decide +kernel
theorem witness_JumpsLoadThePc : fieldF 0x1FFF = 0x1 ∧ fieldF 0xB000 = 0xB := by decide
/-- Room left, with and without a depth, and a full stack. -/
theorem witness_CallPushesTheReturnAddress :
    (∀ d, State.reset.cfg.stackDepth = some d → State.reset.stack.length < d) ∧
    (∀ d, (depth 1 State.reset).cfg.stackDepth = some d → (depth 1 State.reset).stack.length < d) ∧
    (depth 1 (setStack [0x206] State.reset)).cfg.stackDepth = some 1 ∧
    1 ≤ (depth 1 (setStack [0x206] State.reset)).stack.length :=
  ⟨by simp [State.reset, Config.standard], by simp [depth, State.reset], rfl, by decide⟩
theorem witness_ReturnPopsThePc : (setStack [0xABC, 0x206] State.reset).stack = 0xABC :: [0x206] ∧
    State.reset.stack = [] := by decide +kernel
theorem witness_ReturnResumesAfterTheCall : let s := at0 0x1000
    (∀ d, s.cfg.stackDepth = some d → s.stack.length < d) ∧
    exec (.call 0xABC) s = .next (setPc 0xABC (setStack [0x1000] s)) ∧
    (regs [(1, 5)] (setPc 0xABC (setStack [0x1000] s))).stack = (setPc 0xABC (setStack [0x1000] s)).stack :=
  ⟨by simp [at0, State.reset, Config.standard], rfl, rfl⟩
theorem witness_SkipsCompareARegisterWithAnImmediate : fieldF 0x3F01 = 0x3 ∧ fieldF 0x4A07 = 0x4 ∧
    getV State.reset 15 = 0 ∧ getV State.reset 15 ≠ 1 := by decide +kernel
theorem witness_SkipsCompareTwoRegisters : getV (regs [(1, 7)] State.reset) 1 = getV (regs [(1, 7)] State.reset) 1 ∧
    getV (regs [(1, 7)] State.reset) 1 ≠ getV (regs [(1, 7)] State.reset) 2 := by decide +kernel
theorem witness_LoadsSetOneRegister : fieldF 0x6FAB = 0x6 ∧ fieldF 0x8120 = 0x8 ∧ fieldN 0x8120 = 0x0 := by decide
theorem witness_AddImmediateWrapsWithoutAFlag : fieldF 0x7F01 = 0x7 := by decide
/-- For the flag writers: a destination other than VF. -/
theorem witness_destination_other_than_VF : (14 : RegNum) ≠ VF := by decide
/-- The six flag writers; a sprite of no row at any I, and the longest one at its last place. -/
theorem witness_FlagIsAlwaysZeroOrOne : Instr.addReg 15 15 = .addReg 15 15 ∧
    memBase (withI 4081 State.reset) + 15 ≤ 4096 ∧ memBase (withI 0xFFFF State.reset) + 0 = 65535 := by decide +kernel
theorem witness_RandomByteIsMasked : (byteIn 0xA7 State.reset).env.bytesIn = 0xA7 :: [] ∧
    State.reset.env.bytesIn = [] ∧ (1 : RegNum) ≠ 0 := by decide +kernel
theorem witness_VfChangesOnlyAsFlagOrDestination :
    exec (.addReg 0 0) (regs [(0, 0x80)] State.reset) =
      .next (setResultAndFlag 0 0 true (regs [(0, 0x80)] State.reset)) ∧
    getV (setResultAndFlag 0 0 true (regs [(0, 0x80)] State.reset)) VF ≠ getV (regs [(0, 0x80)] State.reset) VF :=
  ⟨rfl, by decide +kernel⟩
theorem witness_LoadAddressRegister : fieldF 0xAFFF = 0xA := by decide
/-- The last legal I of each transfer. -/
theorem witness_DecimalDigitsAreStored : memBase (withI 4093 State.reset) + 3 ≤ 4096 := by decide +kernel
theorem witness_RegistersAreStored : memBase (withI 4080 State.reset) + (15 : RegNum).val ≤ 4095 := by decide +kernel
theorem witness_RegistersAreLoaded : memBase (withI 4095 State.reset) + (0 : RegNum).val ≤ 4095 ∧
    ¬ (15 : RegNum) ≤ 0 := by decide +kernel
/-- The first illegal I of each. -/
theorem witness_TransfersBeyondMemoryTakeAddressOutOfRange : 4095 < memBase (withI 4094 State.reset) + 2 ∧
    4095 < memBase (withI 4081 State.reset) + (15 : RegNum).val ∧ 0 < 15 ∧
    4095 < memBase (withI 4082 State.reset) + 15 - 1 := by decide +kernel
theorem witness_ToggleFlipsOneWrappedCell : 64 % 64 = 0 % 64 ∧ 255 % 32 = 31 % 32 ∧
    (0 : Fin 64).val = 64 % 64 ∧ (31 : Fin 32).val = 255 % 32 ∧ ¬ ((1 : Fin 64).val = 64 % 64) := by decide

/-- A one-row sprite of two set bits at the last byte of memory, drawn at (60, 31): its last column wraps to the one lit
cell (3, 31). -/
def spriteState : State :=
  withI 4095 (poke 4095 [0x81] (regs [(0, 60), (1, 31)] (setFb (togglePixel 3 31 clearFb).1 State.reset)))

/-- A covered cell that is ON, one that is OFF, and a cell not covered; the longest sprite and the empty one. -/
theorem witness_SpriteFlipsTheCellsItCovers :
    (1 ≤ 15 ∧ memBase spriteState + 1 ≤ 4096) ∧
    (SpriteCovers 0 1 1 spriteState 3 31 ∧ pixel spriteState.fb 3 31 = true) ∧
    (SpriteCovers 0 1 1 spriteState 60 31 ∧ pixel spriteState.fb 60 31 = false) ∧
    ¬ SpriteCovers 0 1 0 spriteState 3 31 ∧ memBase (withI 4081 State.reset) + 15 ≤ 4096 := by
  refine ⟨by decide +kernel, ⟨⟨0, by omega, 7, by omega, ?_⟩, ?_⟩, ⟨⟨0, by omega, 0, by omega, ?_⟩, ?_⟩, ?_, ?_⟩
  · decide +kernel
  · decide +kernel
  · decide +kernel
  · decide +kernel
  · rintro ⟨r, h, -⟩; omega
  · decide +kernel
/-- The clause of the flag that stays 0: no covered cell is ON. -/
theorem witness_SpriteWithoutCollision : ∀ cx cy, SpriteCovers 0 1 0 spriteState cx cy →
    pixel spriteState.fb cx cy = false := by
  rintro cx cy ⟨r, h, -⟩; omega
theorem witness_SpriteDrawnTwiceRestoresTheDisplay :
    (1 ≤ 15 ∧ memBase spriteState + 1 ≤ 4096) ∧ (0 : RegNum) ≠ VF ∧ (1 : RegNum) ≠ VF ∧
    ∃ t, exec (.drw 0 1 1) spriteState = .next t := by
  refine ⟨by decide +kernel, by decide, by decide, ?_⟩
  have h : memBase spriteState + 1 ≤ memSize := by decide +kernel
  refine ⟨setFlag (drawSprite 0 1 1 spriteState).2 (setFb (drawSprite 0 1 1 spriteState).1 spriteState), ?_⟩
  show guarded (rangeFault (memBase spriteState) 1) spriteState _ = _
  rw [(rangeFault_eq_none (memBase spriteState) 1).2 (.inr h)]
  rfl
theorem witness_RenderFillsABlockPerCell : (1 : Nat) < 2 ∧ (0 : Nat) < 2 := by decide
/-- Vx at 15 with key 15 down and up, Vx at 16; a queued sample and none. -/
theorem witness_KeySkipsFollowTheKeyNamedByVx :
    ((getV (keys 0x8000 (regs [(5, 15)] State.reset)) 5).toNat < 16 ∧
      (sampledKeys (keys 0x8000 (regs [(5, 15)] State.reset))).getLsbD 15 = true) ∧
    (sampledKeys (keys 0x7FFF (regs [(5, 15)] State.reset))).getLsbD 15 = false ∧
    15 < (getV (regs [(5, 16)] State.reset) 5).toNat ∧
    (keys 0x8000 State.reset).env.keysIn = 0x8000 :: [] ∧ State.reset.env.keysIn = [] := by decide +kernel

/-- For the rules about every instruction: one that completes. -/
theorem witness_an_instruction_completes :
    exec (.ldImm 0 5) State.reset = .next (setV 0 5 State.reset) ∧ ∀ x, Instr.ldImm 0 5 ≠ .ldStVx x :=
  ⟨rfl, fun _ h => Instr.noConfusion h⟩
theorem witness_OnlySixInstructionsTakeACause : State.reset.mode = .running ∧
    exec .ret State.reset = .next (raise .stackUnderflow State.reset) ∧
    (raise .stackUnderflow State.reset).mode = .faulted .stackUnderflow := ⟨rfl, rfl, rfl⟩
theorem witness_DisplayChangesOnlyByClsDrwAndReset :
    let s := setFb (togglePixel 0 0 clearFb).1 (ready .reset)
    step s = .next (driverStep s) ∧ (driverStep s).fb ≠ s.fb := ⟨rfl, by decide +kernel⟩
theorem witness_MemoryChangesOnlyByStoresAndTheDriver : let s := ready .loadFont
    step s = .next (driverStep s) ∧ readMem (driverStep s) 0 ≠ readMem s 0 := ⟨rfl, by decide +kernel⟩
theorem witness_ParametersNeverChange : step (ready .loadFont) = .next (driverStep (ready .loadFont)) := rfl
/-- The three clauses: inside a batch, idle with nothing issued, idle with an operation. -/
theorem witness_DriverActsOnlyBetweenCycles :
    (inBatch 0 (ready .reset)).env.phase = .batch 0 ∧
    step (inBatch 0 (ready .reset)) = .next (endCycle (inBatch 0 (ready .reset))) ∧
    (State.reset.env.phase = .idle ∧ State.reset.env.ops = [] ∧ step State.reset = .next State.reset) ∧
    (ready .reset).env.ops = .reset :: [] := ⟨rfl, rfl, ⟨rfl, rfl, rfl⟩, rfl⟩

end Sys2Proof.Tests
end

section
/-! PROOFS. Control transfer (spec 41_control_flow.md R111, R113, R114, R117): the decode equations of the forms, the next
state of each instruction, and the two statements. -/

namespace Sys2Proof

/-! ### Decode equations: f alone selects the instruction (R74) -/

theorem decodeWord_of_fieldF_1 {w : Word} (h : fieldF w = 0x1) : decodeWord w = some (.jp (fieldNNN w)) := by
  simp [decodeWord, h]

theorem decodeWord_of_fieldF_3 {w : Word} (h : fieldF w = 0x3) :
    decodeWord w = some (.seImm (fieldX w) (fieldKK w)) := by
  simp [decodeWord, h]

theorem decodeWord_of_fieldF_4 {w : Word} (h : fieldF w = 0x4) :
    decodeWord w = some (.sneImm (fieldX w) (fieldKK w)) := by
  simp [decodeWord, h]

theorem decodeWord_of_fieldF_B {w : Word} (h : fieldF w = 0xB) : decodeWord w = some (.jpV0 (fieldNNN w)) := by
  simp [decodeWord, h]

end Sys2Proof

namespace Sys2Proof.Machine

/-! ### The next state of each instruction -/

theorem exec_jp (nnn : Addr12) (s : State) : exec (.jp nnn) s = .next (setPc (zextAddr nnn) s) := rfl

theorem exec_jpV0 (nnn : Addr12) (s : State) : exec (.jpV0 nnn) s = .next (setPc (indexedTarget nnn s) s) := rfl

theorem exec_seImm (x : RegNum) (kk : Byte) (s : State) :
    exec (.seImm x kk) s = .next (skipIf (getV s x == kk) s) := rfl

theorem exec_sneImm (x : RegNum) (kk : Byte) (s : State) :
    exec (.sneImm x kk) s = .next (skipIf (getV s x != kk) s) := rfl

/-! ### The shared skip, branch by branch -/

theorem skipIf_pc_of_true {c : Bool} (h : c = true) (s : State) : (skipIf c s).pc = s.pc + 2 := by
  rw [skipIf_pc, if_pos h]

theorem skipIf_pc_of_false {c : Bool} (h : c = false) (s : State) : (skipIf c s).pc = s.pc := by
  rw [skipIf_pc, h, if_neg Bool.false_ne_true]

end Sys2Proof.Machine

open Sys2Proof Sys2Proof.Machine

/-- Settles O24: both jumps are one `setPc`, and neither target wraps (`zextAddr_toNat`, `indexedTarget_toNat`). -/
theorem jumpsLoadThePc : Obligations.JumpsLoadThePc := by
  refine ⟨fun _ => decodeWord_of_fieldF_1, fun _ => decodeWord_of_fieldF_B, fun nnn s => ⟨?jp, ?jpV0⟩⟩
  case jp => exact ⟨_, exec_jp nnn s, zextAddr_toNat nnn, onlyPcChanges_setPc _ s⟩
  case jpV0 => exact ⟨_, exec_jpV0 nnn s, indexedTarget_toNat nnn s, onlyPcChanges_setPc _ s⟩

/-- Settles O28: both skips are one `skipIf`, whose condition is the comparison of Vx with kk. -/
theorem skipsCompareARegisterWithAnImmediate : Obligations.SkipsCompareARegisterWithAnImmediate := by
  refine ⟨fun _ => decodeWord_of_fieldF_3, fun _ => decodeWord_of_fieldF_4, fun x kk s => ⟨?se, ?sne⟩⟩
  case se =>
    exact ⟨_, exec_seImm x kk s, fun h => skipIf_pc_of_true (beq_iff_eq.2 h) s,
      fun h => skipIf_pc_of_false (beq_eq_false_iff_ne.2 h) s, onlyPcChanges_skipIf _ s⟩
  case sne =>
    exact ⟨_, exec_sneImm x kk s, fun h => skipIf_pc_of_true (bne_iff_ne.2 h) s,
      fun h => skipIf_pc_of_false (bne_eq_false_iff_eq.2 h) s, onlyPcChanges_skipIf _ s⟩

end

section
/-! PROOFS. Loads and the immediate addition (spec 42_load_alu.md R131, R132, R133): the decode equations of the forms,
the next state of each instruction, and the two statements. -/

namespace Sys2Proof

/-! ### Decode equations: f selects the instruction, or family 8 (R74) -/

theorem decodeWord_of_fieldF_6 {w : Word} (h : fieldF w = 0x6) :
    decodeWord w = some (.ldImm (fieldX w) (fieldKK w)) := by
  simp [decodeWord, h]

theorem decodeWord_of_fieldF_7 {w : Word} (h : fieldF w = 0x7) :
    decodeWord w = some (.addImm (fieldX w) (fieldKK w)) := by
  simp [decodeWord, h]

theorem decodeWord_of_fieldF_8 {w : Word} (h : fieldF w = 0x8) : decodeWord w = decodeFamily8 w := by
  simp [decodeWord, h]

theorem decodeFamily8_of_fieldN_0 {w : Word} (h : fieldN w = 0x0) :
    decodeFamily8 w = some (.ldReg (fieldX w) (fieldY w)) := by
  simp [decodeFamily8, h]

end Sys2Proof

namespace Sys2Proof.Machine

/-! ### The next state of each instruction: one register write -/

theorem exec_ldImm (x : RegNum) (kk : Byte) (s : State) : exec (.ldImm x kk) s = .next (setV x kk s) := rfl

theorem exec_ldReg (x y : RegNum) (s : State) : exec (.ldReg x y) s = .next (setV x (getV s y) s) := rfl

theorem exec_addImm (x : RegNum) (kk : Byte) (s : State) :
    exec (.addImm x kk) s = .next (setV x (getV s x + kk) s) := rfl

end Sys2Proof.Machine

open Sys2Proof Sys2Proof.Machine

/-- Settles O30: both loads are one `setV`, whose frame is `onlyRegsChange_setV`. -/
theorem loadsSetOneRegister : Obligations.LoadsSetOneRegister := by
  refine ⟨fun _ => decodeWord_of_fieldF_6, fun w hf hn => ?decodeReg, fun x kk s => ?imm, fun x y s => ?reg⟩
  case decodeReg => rw [decodeWord_of_fieldF_8 hf, decodeFamily8_of_fieldN_0 hn]
  case imm => exact ⟨_, exec_ldImm x kk s, getV_setV_same s x kk, onlyRegsChange_setV x kk s⟩
  case reg => exact ⟨_, exec_ldReg x y s, getV_setV_same s x _, onlyRegsChange_setV x _ s⟩

/-- Settles O31: the addition is one `setV` of an 8-bit sum, so it wraps at 256 and the frame leaves VF out unless
x = F. -/
theorem addImmediateWrapsWithoutAFlag : Obligations.AddImmediateWrapsWithoutAFlag := by
  refine ⟨fun _ => decodeWord_of_fieldF_7, fun x kk s => ⟨_, exec_addImm x kk s, ?sum, onlyRegsChange_setV x _ s⟩⟩
  case sum => rw [getV_setV_same, BitVec.toNat_add]

end

section
/-! PROOFS. The address register (spec 43_index_memory.md R150): the decode equation of the form, the next state of the
instruction, and the statement. -/

namespace Sys2Proof

/-- f alone selects the instruction (R74). -/
theorem decodeWord_of_fieldF_A {w : Word} (h : fieldF w = 0xA) : decodeWord w = some (.ldI (fieldNNN w)) := by
  simp [decodeWord, h]

end Sys2Proof

namespace Sys2Proof.Machine

theorem exec_ldI (nnn : Addr12) (s : State) : exec (.ldI nnn) s = .next (setI (zextAddr nnn) s) := rfl

theorem setI_zextAddr_i_toNat (nnn : Addr12) (s : State) : (setI (zextAddr nnn) s).i.toNat = nnn.toNat := by
  rw [setI_i, zextAddr_toNat]

end Sys2Proof.Machine

open Sys2Proof Sys2Proof.Machine

/-- Settles O39: the load is one `setI` of the zero-extended nnn, whose frame is `onlyIChanges_setI`. -/
theorem loadAddressRegister : Obligations.LoadAddressRegister := by
  refine ⟨fun _ => decodeWord_of_fieldF_A, fun nnn s => ?load⟩
  case load => exact ⟨_, exec_ldI nnn s, setI_zextAddr_i_toNat nnn s, onlyIChanges_setI _ s⟩

end

section
/-! PROOFS. The display (spec 44_display.md R170, R171, R174): one toggle and its undoing, the decode equation and the
next state of `00E0`, and the two statements. -/

namespace Sys2Proof

/-! ### `00E0` is one whole word: only family 0 decodes to it (R74) -/

theorem decodeFamily0_eq_cls_iff {w : Word} : decodeFamily0 w = some .cls ↔ w = 0x00E0 := by
  unfold decodeFamily0
  split
  case isTrue h => exact iff_of_true rfl h
  case isFalse h => exact iff_of_false (by split <;> simp) h

theorem decodeIfN0_ne_cls (w : Word) {i : Instr} (h : i ≠ .cls) : decodeIfN0 w i ≠ some .cls := by
  unfold decodeIfN0
  split <;> simp [h]

theorem decodeFamily8_ne_cls (w : Word) : decodeFamily8 w ≠ some .cls := by
  unfold decodeFamily8
  split <;> simp

theorem decodeFamilyE_ne_cls (w : Word) : decodeFamilyE w ≠ some .cls := by
  unfold decodeFamilyE
  split <;> simp

theorem decodeFamilyF_ne_cls (w : Word) : decodeFamilyF w ≠ some .cls := by
  unfold decodeFamilyF
  split <;> simp

theorem decodeWord_of_fieldF_0 {w : Word} (h : fieldF w = 0x0) : decodeWord w = decodeFamily0 w := by
  simp [decodeWord, h]

theorem decodeWord_ne_cls_of_fieldF_ne_0 {w : Word} (h : fieldF w ≠ 0x0) : decodeWord w ≠ some .cls := by
  unfold decodeWord
  split
  case h_1 h0 => exact absurd (BitVec.eq_of_toNat_eq h0) h
  all_goals
    simp [decodeIfN0_ne_cls, decodeFamily8_ne_cls, decodeFamilyE_ne_cls, decodeFamilyF_ne_cls]

theorem decodeWord_eq_cls_iff {w : Word} : decodeWord w = some .cls ↔ w = 0x00E0 := by
  by_cases h : fieldF w = 0x0
  · rw [decodeWord_of_fieldF_0 h, decodeFamily0_eq_cls_iff]
  · refine iff_of_false (decodeWord_ne_cls_of_fieldF_ne_0 h) ?_
    rintro rfl
    exact h rfl

end Sys2Proof

namespace Sys2Proof.Machine

theorem exec_cls (s : State) : exec .cls s = .next (setFb clearFb s) := rfl

/-! ### A toggle depends on the wrapped coordinates alone, and is its own inverse -/

theorem togglePixel_congr {px py px' py' : Nat} (hx : px % 64 = px' % 64) (hy : py % 32 = py' % 32) :
    togglePixel px py = togglePixel px' py' := by
  have ex : Fin.ofNat 64 px = Fin.ofNat 64 px' := Fin.ext hx
  have ey : Fin.ofNat 32 py = Fin.ofNat 32 py' := Fin.ext hy
  funext fb
  simp only [togglePixel, ex, ey]

/-- The answer of a toggle is what the cell it flips was. -/
theorem togglePixel_hit_of_cell {px py : Nat} {x : Fin 64} {y : Fin 32} (hx : px % 64 = x.val) (hy : py % 32 = y.val)
    (fb : Framebuffer) : (togglePixel px py fb).2 = pixel fb x y := by
  have ex : Fin.ofNat 64 px = x := Fin.ext hx
  have ey : Fin.ofNat 32 py = y := Fin.ext hy
  rw [togglePixel_hit, ex, ey]

theorem togglePixel_twice_fb (px py : Nat) (fb : Framebuffer) :
    (togglePixel px py (togglePixel px py fb).1).1 = fb := by
  apply fb_ext
  intro x y
  rw [pixel_togglePixel, pixel_togglePixel]
  split
  case isTrue => exact Bool.not_not _
  case isFalse => rfl

theorem togglePixel_twice_hit (px py : Nat) (fb : Framebuffer) :
    (togglePixel px py (togglePixel px py fb).1).2 = !(togglePixel px py fb).2 := by
  rw [togglePixel_hit, togglePixel_hit, pixel_togglePixel, if_pos ⟨rfl, rfl⟩]

end Sys2Proof.Machine

open Sys2Proof Sys2Proof.Machine

/-- Settles O45: one toggle is `pixel_togglePixel`, and the second call is the same toggle again
(`togglePixel_congr`), which undoes the first. -/
theorem toggleFlipsOneWrappedCell : Obligations.ToggleFlipsOneWrappedCell := by
  intro px py px' py' fb hpx hpy
  refine ⟨fun x y => ⟨fun hx hy => ⟨?flipped, ?answer⟩, fun hne => ?kept⟩, ?restored, ?opposite⟩
  case flipped => rw [pixel_togglePixel, if_pos ⟨hx.symm, hy.symm⟩]
  case answer => exact togglePixel_hit_of_cell hx.symm hy.symm fb
  case kept => rw [pixel_togglePixel, if_neg fun ⟨ex, ey⟩ => hne ⟨ex.symm, ey.symm⟩]
  case restored => rw [← togglePixel_congr hpx hpy, togglePixel_twice_fb]
  case opposite => rw [← togglePixel_congr hpx hpy, togglePixel_twice_hit]

/-- Settles O46: the decoder gives `cls` for the one word (`decodeWord_eq_cls_iff`), and `cls` is one `setFb` of the
cleared framebuffer. -/
theorem clearTurnsEveryCellOff : Obligations.ClearTurnsEveryCellOff := by
  refine ⟨fun _ => decodeWord_eq_cls_iff, fun s => ⟨setFb clearFb s, exec_cls s, pixel_clearFb, ?regs, ?mem, ?rest⟩⟩
  case regs => exact getV_congr (setFb_v s clearFb)
  case mem => exact readMem_congr (setFb_mem s clearFb)
  case rest => rfl

end

section
/-! PROOFS. The decoder and the encoder (spec 30_encoding.md R71 to R77): more decode equations, a word from
its fields, the opcode map as patterns of fields, and the statements. -/

namespace Sys2Proof

/-! ### Decode equations of more families (R74) -/

theorem decodeWord_of_fieldF_5 {w : Word} (h : fieldF w = 0x5) :
    decodeWord w = decodeIfN0 w (.seReg (fieldX w) (fieldY w)) := by
  simp [decodeWord, h]

theorem decodeWord_of_fieldF_9 {w : Word} (h : fieldF w = 0x9) :
    decodeWord w = decodeIfN0 w (.sneReg (fieldX w) (fieldY w)) := by
  simp [decodeWord, h]

theorem decodeWord_of_fieldF_D {w : Word} (h : fieldF w = 0xD) :
    decodeWord w = some (.drw (fieldX w) (fieldY w) (fieldN w)) := by
  simp [decodeWord, h]

theorem decodeWord_of_fieldF_E {w : Word} (h : fieldF w = 0xE) : decodeWord w = decodeFamilyE w := by
  simp [decodeWord, h]

theorem decodeWord_of_fieldF_F {w : Word} (h : fieldF w = 0xF) : decodeWord w = decodeFamilyF w := by
  simp [decodeWord, h]

/-! ### Decoding an encoding -/

theorem decodeWord_encodeWord {i : Instr} (h : i.wellFormed = true) : decodeWord (encodeWord i) = some i := by
  cases i
  case cls | ret => decide
  case drw x y n =>
    have hn : n < 16 := by simpa [Instr.wellFormed] using h
    simp [encodeWord, decodeWord_of_fieldF_D, Nat.mod_eq_of_lt hn]
  all_goals simp [encodeWord, decodeWord, decodeIfN0, decodeFamily8, decodeFamilyE, decodeFamilyF]

theorem decode_encode {i : Instr} (h : i.wellFormed = true) (rest : List Byte) :
    decode (encode i ++ rest) = .ok (i, rest) := by
  simp [encode, decode, decodeWord_encodeWord h]

/-! ### A word is the word of its fields (R71) -/

theorem formatA_fields (w : Word) : formatA (fieldF w) (fieldNNN w) = w := by
  apply BitVec.eq_of_toNat_eq
  rw [formatA_toNat, fieldF_toNat, fieldNNN_toNat]
  omega

theorem formatXK_fields (w : Word) : formatXK (fieldF w) (fieldX w) (fieldKK w) = w := by
  apply BitVec.eq_of_toNat_eq
  rw [formatXK_toNat, fieldF_toNat, fieldX_val, fieldKK_toNat]
  omega

theorem formatXS_fields (w : Word) : formatXS (fieldF w) (fieldX w) (fieldKK w) = w := formatXK_fields w

theorem formatXY_fields (w : Word) : formatXY (fieldF w) (fieldX w) (fieldY w) (BitVec.ofNat 4 (fieldN w)) = w := by
  apply BitVec.eq_of_toNat_eq
  rw [formatXY_toNat, fieldF_toNat, fieldX_val, fieldY_val, BitVec.toNat_ofNat, fieldN_val]
  omega

/-! ### Encoding a decoded word, family by family -/

theorem eq_ofNat_of_toNat_eq {n k : Nat} {b : BitVec n} (h : b.toNat = k) : b = BitVec.ofNat n k := by
  rw [← h, BitVec.ofNat_toNat, BitVec.setWidth_eq]

/-- What decoding promises of its answer: a well-formed instruction whose word is the one decoded. -/
def EncodesTo (w : Word) (i : Instr) : Prop := i.wellFormed = true ∧ encodeWord i = w

theorem encodesTo_of_decodeFamily0 {w : Word} {i : Instr} (h : decodeFamily0 w = some i) : EncodesTo w i := by
  unfold decodeFamily0 at h
  split at h
  case isTrue hw => cases h; exact ⟨rfl, hw.symm⟩
  case isFalse =>
    split at h
    case isTrue hw => cases h; exact ⟨rfl, hw.symm⟩
    case isFalse => cases h

theorem encodesTo_of_decodeIfN0 {w : Word} {i j : Instr} (h : decodeIfN0 w j = some i)
    (hj : fieldN w = 0 → EncodesTo w j) : EncodesTo w i := by
  unfold decodeIfN0 at h
  split at h
  case isTrue hn => cases h; exact hj hn
  case isFalse => cases h

theorem encodesTo_of_decodeFamily8 {w : Word} {i : Instr} (hf : fieldF w = 0x8) (h : decodeFamily8 w = some i) :
    EncodesTo w i := by
  have hw := formatXY_fields w
  unfold decodeFamily8 at h
  split at h
  case h_10 => cases h
  all_goals
    next hn =>
    cases h
    rw [hf, hn] at hw
    exact ⟨rfl, hw⟩

theorem encodesTo_of_decodeFamilyE {w : Word} {i : Instr} (hf : fieldF w = 0xE) (h : decodeFamilyE w = some i) :
    EncodesTo w i := by
  have hw := formatXS_fields w
  unfold decodeFamilyE at h
  split at h
  case h_3 => cases h
  all_goals
    next hkk =>
    cases h
    rw [hf, eq_ofNat_of_toNat_eq hkk] at hw
    exact ⟨rfl, hw⟩

theorem encodesTo_of_decodeFamilyF {w : Word} {i : Instr} (hf : fieldF w = 0xF) (h : decodeFamilyF w = some i) :
    EncodesTo w i := by
  have hw := formatXS_fields w
  unfold decodeFamilyF at h
  split at h
  case h_10 => cases h
  all_goals
    next hkk =>
    cases h
    rw [hf, eq_ofNat_of_toNat_eq hkk] at hw
    exact ⟨rfl, hw⟩

/-- A word that decodes is the word of the instruction it decodes to, which is well formed. -/
theorem encodesTo_of_decodeWord {w : Word} {i : Instr} (h : decodeWord w = some i) : EncodesTo w i := by
  have hA := formatA_fields w
  have hXK := formatXK_fields w
  have hXY := formatXY_fields w
  unfold decodeWord at h
  split at h
  case h_1 => exact encodesTo_of_decodeFamily0 h
  case h_6 hf | h_10 hf =>
    refine encodesTo_of_decodeIfN0 h fun hn => ⟨rfl, ?_⟩
    rw [eq_ofNat_of_toNat_eq hf, hn] at hXY
    exact hXY
  case h_9 hf => exact encodesTo_of_decodeFamily8 (eq_ofNat_of_toNat_eq hf) h
  case h_14 hf =>
    cases h
    rw [eq_ofNat_of_toNat_eq hf] at hXY
    exact ⟨decide_eq_true (fieldN_val w ▸ Nat.mod_lt _ (by decide)), hXY⟩
  case h_15 hf => exact encodesTo_of_decodeFamilyE (eq_ofNat_of_toNat_eq hf) h
  case h_16 hf => exact encodesTo_of_decodeFamilyF (eq_ofNat_of_toNat_eq hf) h
  case h_17 => cases h
  case h_2 hf | h_3 hf | h_11 hf | h_12 hf =>
    cases h
    rw [eq_ofNat_of_toNat_eq hf] at hA
    exact ⟨rfl, hA⟩
  case h_4 hf | h_5 hf | h_7 hf | h_8 hf | h_13 hf =>
    cases h
    rw [eq_ofNat_of_toNat_eq hf] at hXK
    exact ⟨rfl, hXK⟩

/-! ### The opcode map: what a row's match says of the fields (R75) -/

theorem fieldF_of_and {w m p : Word} (h : w &&& m = p) (hm : fieldF m = BitVec.allOnes 4) : fieldF w = fieldF p := by
  rw [← h, fieldF, fieldF, BitVec.extractLsb'_and, ← fieldF, ← fieldF, hm, BitVec.and_allOnes]

theorem fieldKK_of_and {w m p : Word} (h : w &&& m = p) (hm : fieldKK m = BitVec.allOnes 8) :
    fieldKK w = fieldKK p := by
  rw [← h, fieldKK, fieldKK, BitVec.extractLsb'_and, ← fieldKK, ← fieldKK, hm, BitVec.and_allOnes]

theorem fieldN_of_and {w m p : Word} (h : w &&& m = p) (hm : m.extractLsb' 0 4 = BitVec.allOnes 4) :
    fieldN w = fieldN p := by
  rw [← h, fieldN, fieldN, BitVec.extractLsb'_and, hm, BitVec.and_allOnes]

theorem fieldF_of_and_F000 {w p : Word} (h : w &&& 0xF000 = p) : fieldF w = fieldF p := fieldF_of_and h (by decide)

theorem fields_of_and_F00F {w p : Word} (h : w &&& 0xF00F = p) : fieldF w = fieldF p ∧ fieldN w = fieldN p :=
  ⟨fieldF_of_and h (by decide), fieldN_of_and h (by decide)⟩

theorem fields_of_and_F0FF {w p : Word} (h : w &&& 0xF0FF = p) : fieldF w = fieldF p ∧ fieldKK w = fieldKK p :=
  ⟨fieldF_of_and h (by decide), fieldKK_of_and h (by decide)⟩

/-- A word that matches the row of an instruction decodes to an instruction of that row. -/
theorem decodeWord_of_matches_row {w : Word} (i : Instr) (h : w &&& i.row.mask = i.row.pattern) :
    ∃ j, decodeWord w = some j ∧ j.row = i.row := by
  cases i <;> simp only [Instr.row] at h
  case cls | ret =>
    have hw : w = _ := (BitVec.and_allOnes (x := w)).symm.trans h
    subst hw
    exact ⟨_, rfl, rfl⟩
  case seReg =>
    obtain ⟨hf, hn⟩ := fields_of_and_F00F h
    exact ⟨_, (decodeWord_of_fieldF_5 (hf.trans (by decide))).trans (if_pos hn), rfl⟩
  case sneReg =>
    obtain ⟨hf, hn⟩ := fields_of_and_F00F h
    exact ⟨_, (decodeWord_of_fieldF_9 (hf.trans (by decide))).trans (if_pos hn), rfl⟩
  case ldReg | orReg | andReg | xorReg | addReg | subReg | shr | subnReg | shl =>
    obtain ⟨hf, hn⟩ := fields_of_and_F00F h
    rw [decodeWord_of_fieldF_8 (hf.trans (by decide)), decodeFamily8, hn]
    exact ⟨_, rfl, rfl⟩
  case skp | sknp =>
    obtain ⟨hf, hkk⟩ := fields_of_and_F0FF h
    rw [decodeWord_of_fieldF_E (hf.trans (by decide)), decodeFamilyE, hkk]
    exact ⟨_, rfl, rfl⟩
  case ldVxDt | ldVxKey | ldDtVx | ldStVx | addIVx | ldFVx | ldBVx | storeRegs | loadRegs =>
    obtain ⟨hf, hkk⟩ := fields_of_and_F0FF h
    rw [decodeWord_of_fieldF_F (hf.trans (by decide)), decodeFamilyF, hkk]
    exact ⟨_, rfl, rfl⟩
  all_goals
    have hf := fieldF_of_and_F000 h
    rw [decodeWord, hf]
    exact ⟨_, rfl, rfl⟩

/-- One instruction of every row, in the order of the opcode map. -/
def rowInstrs : List Instr :=
  [.cls, .ret, .jp 0, .call 0, .seImm 0 0, .sneImm 0 0, .seReg 0 0, .ldImm 0 0, .addImm 0 0, .ldReg 0 0, .orReg 0 0,
   .andReg 0 0, .xorReg 0 0, .addReg 0 0, .subReg 0 0, .shr 0 0, .subnReg 0 0, .shl 0 0, .sneReg 0 0, .ldI 0, .jpV0 0,
   .rnd 0 0, .drw 0 0 0, .skp 0, .sknp 0, .ldVxDt 0, .ldVxKey 0, .ldDtVx 0, .ldStVx 0, .addIVx 0, .ldFVx 0, .ldBVx 0,
   .storeRegs 0, .loadRegs 0]

theorem opcodeMap_eq_map_row : opcodeMap = rowInstrs.map Instr.row := rfl

theorem exists_row_eq_of_mem_opcodeMap {row : OpcodeRow} (h : row ∈ opcodeMap) : ∃ i : Instr, i.row = row := by
  rw [opcodeMap_eq_map_row] at h
  obtain ⟨i, -, hi⟩ := List.mem_map.1 h
  exact ⟨i, hi⟩

theorem row_mem_opcodeMap (i : Instr) : i.row ∈ opcodeMap := by
  cases i <;> simp [Instr.row, opcodeMap]

/-- The family EncodesInItsRow, for an instruction not yet split into its constructors. -/
theorem encodeWord_matches_row (i : Instr) : encodeWord i &&& i.row.mask = i.row.pattern := by
  cases i
  case cls => exact Laws.EncodesInItsRow.cls
  case ret => exact Laws.EncodesInItsRow.ret
  case jp nnn => exact Laws.EncodesInItsRow.jp nnn
  case call nnn => exact Laws.EncodesInItsRow.call nnn
  case seImm x kk => exact Laws.EncodesInItsRow.seImm x kk
  case sneImm x kk => exact Laws.EncodesInItsRow.sneImm x kk
  case seReg x y => exact Laws.EncodesInItsRow.seReg x y
  case ldImm x kk => exact Laws.EncodesInItsRow.ldImm x kk
  case addImm x kk => exact Laws.EncodesInItsRow.addImm x kk
  case ldReg x y => exact Laws.EncodesInItsRow.ldReg x y
  case orReg x y => exact Laws.EncodesInItsRow.orReg x y
  case andReg x y => exact Laws.EncodesInItsRow.andReg x y
  case xorReg x y => exact Laws.EncodesInItsRow.xorReg x y
  case addReg x y => exact Laws.EncodesInItsRow.addReg x y
  case subReg x y => exact Laws.EncodesInItsRow.subReg x y
  case shr x y => exact Laws.EncodesInItsRow.shr x y
  case subnReg x y => exact Laws.EncodesInItsRow.subnReg x y
  case shl x y => exact Laws.EncodesInItsRow.shl x y
  case sneReg x y => exact Laws.EncodesInItsRow.sneReg x y
  case ldI nnn => exact Laws.EncodesInItsRow.ldI nnn
  case jpV0 nnn => exact Laws.EncodesInItsRow.jpV0 nnn
  case rnd x kk => exact Laws.EncodesInItsRow.rnd x kk
  case drw x y n => exact Laws.EncodesInItsRow.drw x y n
  case skp x => exact Laws.EncodesInItsRow.skp x
  case sknp x => exact Laws.EncodesInItsRow.sknp x
  case ldVxDt x => exact Laws.EncodesInItsRow.ldVxDt x
  case ldVxKey x => exact Laws.EncodesInItsRow.ldVxKey x
  case ldDtVx x => exact Laws.EncodesInItsRow.ldDtVx x
  case ldStVx x => exact Laws.EncodesInItsRow.ldStVx x
  case addIVx x => exact Laws.EncodesInItsRow.addIVx x
  case ldFVx x => exact Laws.EncodesInItsRow.ldFVx x
  case ldBVx x => exact Laws.EncodesInItsRow.ldBVx x
  case storeRegs x => exact Laws.EncodesInItsRow.storeRegs x
  case loadRegs x => exact Laws.EncodesInItsRow.loadRegs x

theorem matches_row_of_decodeWord {w : Word} {i : Instr} (h : decodeWord w = some i) :
    w &&& i.row.mask = i.row.pattern := by
  obtain ⟨-, hw⟩ := encodesTo_of_decodeWord h
  exact hw ▸ encodeWord_matches_row i

theorem matches_row_iff {w : Word} {row : OpcodeRow} (h : row ∈ opcodeMap) :
    w &&& row.mask = row.pattern ↔ ∃ i, decodeWord w = some i ∧ i.row = row := by
  constructor
  · obtain ⟨i, rfl⟩ := exists_row_eq_of_mem_opcodeMap h
    exact decodeWord_of_matches_row i
  · rintro ⟨i, hd, rfl⟩
    exact matches_row_of_decodeWord hd

end Sys2Proof

open Sys2Proof

/-- Settles O1, by the fields of each format's words; the bytes are joined by `wordOf_bytes`. -/
theorem encodedInstructionDecodesBack : Obligations.EncodedInstructionDecodesBack :=
  fun _ h => ⟨decodeWord_encodeWord h, decode_encode h⟩

/-- Settles O2: in every family the fixed bits the decoder checked and the fields it read make up the whole word. -/
theorem decodedWordEncodesBack : Obligations.DecodedWordEncodesBack :=
  fun _ _ h => encodesTo_of_decodeWord h

/-- Settles O3: `matches_row_iff` row by row, and every instruction has a row. -/
theorem wordDecodesToARowExactlyWhenItMatches : Obligations.WordDecodesToARowExactlyWhenItMatches := by
  refine fun w => ⟨fun row hrow => matches_row_iff hrow, ?none, ?noRow⟩
  case none =>
    intro h
    cases hd : decodeWord w with
    | none => rfl
    | some i => exact absurd (matches_row_of_decodeWord hd) (h i.row (row_mem_opcodeMap i))
  case noRow =>
    intro hd row hrow hmatch
    obtain ⟨i, hi, -⟩ := (matches_row_iff hrow).1 hmatch
    exact absurd (hd.symm.trans hi) nofun

/-- Settles O4, by running the decoder on each word. -/
theorem writtenOutWordsDecode : Obligations.WrittenOutWordsDecode := by
  unfold Obligations.WrittenOutWordsDecode
  decide

end

section
/-! PROOFS. What `exec` answers, said once for all 34 instructions: the fatal cause of an instruction's check, the state
it completes with, and that the answer is one or the other. The statements about every instruction follow. -/

namespace Sys2Proof.Machine

/-- The cause an instruction's check finds; only six instructions have a check (spec 60_exceptions.md R216). -/
def execCause (i : Instr) (s : State) : Option Cause :=
  match i with
  | .ret => popFault s
  | .call _ => pushFault s
  | .drw _ _ n => rangeFault (memBase s) n
  | .ldBVx _ => rangeFault (memBase s) 3
  | .storeRegs x | .loadRegs x => rangeFault (memBase s) (x.val + 1)
  | _ => none

/-- The state an instruction completes with when its check passes. -/
def execResult (i : Instr) (s : State) : State :=
  match i with
  | .cls => setFb clearFb s
  | .ret => setPc (stackTop s) (popped s)
  | .jp nnn => setPc (zextAddr nnn) s
  | .call nnn => setPc (zextAddr nnn) (push s.pc s)
  | .seImm x kk => skipIf (getV s x == kk) s
  | .sneImm x kk => skipIf (getV s x != kk) s
  | .seReg x y => skipIf (getV s x == getV s y) s
  | .ldImm x kk => setV x kk s
  | .addImm x kk => setV x (getV s x + kk) s
  | .ldReg x y => setV x (getV s y) s
  | .orReg x y => setV x (getV s x ||| getV s y) s
  | .andReg x y => setV x (getV s x &&& getV s y) s
  | .xorReg x y => setV x (getV s x ^^^ getV s y) s
  | .addReg x y => setResultAndFlag x (getV s x + getV s y) (carryFlag (getV s x) (getV s y)) s
  | .subReg x y => setResultAndFlag x (getV s x - getV s y) (greaterFlag (getV s x) (getV s y)) s
  | .shr x _ => setResultAndFlag x (getV s x >>> 1) (bit0Flag (getV s x)) s
  | .subnReg x y => setResultAndFlag x (getV s y - getV s x) (greaterFlag (getV s y) (getV s x)) s
  | .shl x _ => setResultAndFlag x (getV s x <<< 1) (bit7Flag (getV s x)) s
  | .sneReg x y => skipIf (getV s x != getV s y) s
  | .ldI nnn => setI (zextAddr nnn) s
  | .jpV0 nnn => setPc (indexedTarget nnn s) s
  | .rnd x kk => setV x (drawnByte s &&& kk) (afterByteDraw s)
  | .drw x y n => setFlag (drawSprite x y n s).2 (setFb (drawSprite x y n s).1 s)
  | .skp x => skipIf (keyPressed (getV s x).toNat s) (afterKeyQuery (getV s x).toNat s)
  | .sknp x => skipIf (!keyPressed (getV s x).toNat s) (afterKeyQuery (getV s x).toNat s)
  | .ldVxDt x => setV x s.dt s
  | .ldVxKey x => setMode .waitingForKey (setKeyPrev (sampledKeys s) (setWaitReg x (afterKeySample s)))
  | .ldDtVx x => setDt (getV s x) s
  | .ldStVx x => setSt (getV s x) s
  | .addIVx x => setI (s.i + zextByte (getV s x)) s
  | .ldFVx x => setI (glyphAddress (getV s x)) s
  | .ldBVx x => storeBytes (memBase s) (decimalDigits (getV s x)) s
  | .storeRegs x => storeBytes (memBase s) (regsUpTo x s) s
  | .loadRegs x => { s with v := loadFrom s.mem (memBase s) (x.val + 1) s.v }

theorem exec_eq_guarded (i : Instr) (s : State) : exec i s = guarded (execCause i s) s (execResult i s) := by
  cases i <;> rfl

theorem exec_of_cause_none {i : Instr} {s : State} (h : execCause i s = none) :
    exec i s = .next (execResult i s) := by
  rw [exec_eq_guarded, h, guarded_none]

theorem exec_of_cause_some {i : Instr} {s : State} {c : Cause} (h : execCause i s = some c) :
    exec i s = .next (raise c s) := by
  rw [exec_eq_guarded, h, guarded_some]

/-- Everything an instruction can do: take the cause its check found, or complete. -/
theorem exec_cases {i : Instr} {s t : State} (h : exec i s = .next t) :
    (∃ c, execCause i s = some c ∧ t = raise c s) ∨ (execCause i s = none ∧ t = execResult i s) :=
  guarded_cases (exec_eq_guarded i s ▸ h)

/-! ### The range check, at the number of cells -/

theorem rangeFault_inside {b n : Nat} (h : n = 0 ∨ b + n ≤ 4096) : rangeFault b n = none :=
  (rangeFault_eq_none b n).2 h

theorem rangeFault_beyond {b n : Nat} (h0 : 0 < n) (h : 4096 < b + n) :
    rangeFault b n = some (.addressOutOfRange (max b 4096)) :=
  (rangeFault_eq_some b n _).2 ⟨⟨h0, h⟩, rfl⟩

theorem rangeFault_found {b n : Nat} {c : Cause} (h : rangeFault b n = some c) :
    0 < n ∧ 4096 < b + n ∧ c = .addressOutOfRange (max b 4096) := by
  obtain ⟨⟨h0, hlt⟩, hc⟩ := (rangeFault_eq_some b n c).1 h
  exact ⟨h0, hlt, hc⟩

/-! ### Every instruction and every step answers a next state -/

theorem exists_exec_eq_next (i : Instr) (s : State) : ∃ t, exec i s = .next t := by
  cases h : execCause i s with
  | none => exact ⟨_, exec_of_cause_none h⟩
  | some c => exact ⟨_, exec_of_cause_some h⟩

theorem exists_instrStep_eq_next (s : State) : ∃ t, instrStep s = .next t := by
  cases hf : fetchFault s with
  | some c => exact ⟨_, instrStep_fault hf⟩
  | none =>
    cases hd : decodeWord (fetchedWord s) with
    | none => exact ⟨_, instrStep_unrecognized hf hd⟩
    | some i => exact instrStep_decoded hf hd ▸ exists_exec_eq_next i _

theorem exists_step_eq_next (s : State) : ∃ t, step s = .next t := by
  cases hp : s.env.phase with
  | idle => exact ⟨_, step_idle hp⟩
  | batch n =>
    by_cases hm : s.mode = .running
    · cases n with
      | zero => exact ⟨_, step_batch_over hp⟩
      | succ n => exact step_batch_running hp hm ▸ exists_instrStep_eq_next _
    · exact ⟨_, step_batch_stopped hp hm⟩

/-! ### The registers of a state without a register write -/

theorem getV_skipIf (c : Bool) (s : State) (r : RegNum) : getV (skipIf c s) r = getV s r :=
  getV_congr (skipIf_v s c) r

theorem getV_afterKeySample (s : State) (r : RegNum) : getV (afterKeySample s) r = getV s r :=
  getV_congr (afterKeySample_v s) r

theorem getV_afterKeyQuery (k : Nat) (s : State) (r : RegNum) : getV (afterKeyQuery k s) r = getV s r :=
  getV_congr (afterKeyQuery_v s k) r

theorem getV_afterByteDraw (s : State) (r : RegNum) : getV (afterByteDraw s) r = getV s r :=
  getV_congr (afterByteDraw_v s) r

/-- A write that changes VF has VF as its destination. -/
theorem eq_VF_of_getV_setV_ne {x : RegNum} {b : Byte} {s : State} (h : getV (setV x b s) VF ≠ getV s VF) : x = VF := by
  by_contra hx
  exact h (getV_setV_other s b (Ne.symm hx))

/-- A block load that changes VF ends at VF. -/
theorem eq_VF_of_getV_loadFrom_ne {x : RegNum} {b : Nat} {s : State}
    (h : getV { s with v := loadFrom s.mem b (x.val + 1) s.v } VF ≠ getV s VF) : x = VF := by
  by_contra hx
  have hlt : x.val ≠ 15 := fun e => hx (Fin.ext e)
  refine h ((getV_loadFrom s b _ VF).trans (if_neg ?_))
  show ¬ 15 < x.val + 1
  omega

/-! ### Which fields an instruction's completion writes -/

theorem execResult_mode (i : Instr) (s : State) :
    (execResult i s).mode = s.mode ∨ (execResult i s).mode = .waitingForKey := by
  cases i
  case ldVxKey => exact .inr rfl
  all_goals exact .inl (by simp [execResult])

theorem execResult_cfg (i : Instr) (s : State) : (execResult i s).cfg = s.cfg := by
  cases i <;> simp [execResult]

theorem exec_cfg {i : Instr} {s t : State} (h : exec i s = .next t) : t.cfg = s.cfg := by
  rcases exec_cases h with ⟨c, -, rfl⟩ | ⟨-, rfl⟩
  · exact raise_cfg s c
  · exact execResult_cfg i s

/-! ### The fields no completed instruction but `Fx18` reads or writes -/

/-- `s` with ST, TONE, PRESENTS, REPORTS and the place in the cycle of `d`. -/
def withUnreadOf (d s : State) : State :=
  { s with st := d.st, tone := d.tone, presents := d.presents, reports := d.reports,
           env := { s.env with phase := d.env.phase } }

theorem skipIf_withUnreadOf (c : Bool) (d s : State) : skipIf c (withUnreadOf d s) = withUnreadOf d (skipIf c s) := by
  cases c <;> rfl

theorem afterByteDraw_withUnreadOf (d s : State) :
    afterByteDraw (withUnreadOf d s) = withUnreadOf d (afterByteDraw s) := by
  cases h : s.env.bytesIn with
  | nil => rw [afterByteDraw_nil h, afterByteDraw_nil (s := withUnreadOf d s) h]; rfl
  | cons b bs => rw [afterByteDraw_cons h, afterByteDraw_cons (s := withUnreadOf d s) h]; rfl

theorem afterKeySample_withUnreadOf (d s : State) :
    afterKeySample (withUnreadOf d s) = withUnreadOf d (afterKeySample s) := by
  cases h : s.env.keysIn with
  | nil => rw [afterKeySample_nil h, afterKeySample_nil (s := withUnreadOf d s) h]; rfl
  | cons k ks => rw [afterKeySample_cons h, afterKeySample_cons (s := withUnreadOf d s) h]; rfl

theorem afterKeyQuery_withUnreadOf (k : Nat) (d s : State) :
    afterKeyQuery k (withUnreadOf d s) = withUnreadOf d (afterKeyQuery k s) := by
  unfold afterKeyQuery
  split
  · exact afterKeySample_withUnreadOf d s
  · rfl

theorem execCause_withUnreadOf (i : Instr) (d s : State) : execCause i (withUnreadOf d s) = execCause i s := by
  cases i <;> rfl

theorem execResult_withUnreadOf {i : Instr} (hi : ∀ x, i ≠ .ldStVx x) (d s : State) :
    execResult i (withUnreadOf d s) = withUnreadOf d (execResult i s) := by
  cases i
  case ldStVx x => exact absurd rfl (hi x)
  case rnd x kk => exact congrArg (setV x (drawnByte s &&& kk)) (afterByteDraw_withUnreadOf d s)
  case ldVxKey x =>
    exact congrArg (fun u => setMode .waitingForKey (setKeyPrev (sampledKeys s) (setWaitReg x u)))
      (afterKeySample_withUnreadOf d s)
  case skp x | sknp x =>
    exact (congrArg (skipIf _) (afterKeyQuery_withUnreadOf _ d s)).trans (skipIf_withUnreadOf _ d _)
  case seImm | sneImm | seReg | sneReg => exact skipIf_withUnreadOf _ d s
  all_goals rfl

/-- The completion leaves those fields, so grafting the start's own gives nothing new. -/
theorem withUnreadOf_execResult {i : Instr} (hi : ∀ x, i ≠ .ldStVx x) (s : State) :
    withUnreadOf s (execResult i s) = execResult i s :=
  (execResult_withUnreadOf hi s s).symm

theorem exec_withUnreadOf {i : Instr} {s t : State} (hi : ∀ x, i ≠ .ldStVx x) (d : State) (h : exec i s = .next t) :
    (∃ c, t = raise c s ∧ exec i (withUnreadOf d s) = .next (raise c (withUnreadOf d s))) ∨
    (t = withUnreadOf s t ∧ exec i (withUnreadOf d s) = .next (withUnreadOf d t)) := by
  rcases exec_cases h with ⟨c, hc, rfl⟩ | ⟨hc, rfl⟩
  · exact .inl ⟨c, rfl, exec_of_cause_some ((execCause_withUnreadOf i d s).trans hc)⟩
  · refine .inr ⟨(withUnreadOf_execResult hi s).symm, ?_⟩
    rw [exec_of_cause_none ((execCause_withUnreadOf i d s).trans hc), execResult_withUnreadOf hi]

end Sys2Proof.Machine

open Sys2Proof Sys2Proof.Machine

/-- Settles O8: an instruction takes its cause or completes, and every phase of a step has its next state. -/
theorem everyStepAnswersANextState : Obligations.EveryStepAnswersANextState :=
  ⟨exists_exec_eq_next, exists_step_eq_next⟩

/-- Settles O38: a cause changes no register, and a completion is split over its one register write. -/
theorem vfChangesOnlyAsFlagOrDestination : Obligations.VfChangesOnlyAsFlagOrDestination := by
  intro i s t h hne
  rcases exec_cases h with ⟨c, -, rfl⟩ | ⟨-, rfl⟩
  · exact absurd rfl hne
  cases i
  case addReg x y | subReg x y | shr x y | subnReg x y | shl x y => exact .inl ⟨x, y, by simp⟩
  case drw x y n => exact .inr (.inl ⟨x, y, n, rfl⟩)
  case ldImm x kk | addImm x kk =>
    obtain rfl := eq_VF_of_getV_setV_ne hne
    exact .inr (.inr (.inl ⟨kk, by simp⟩))
  case rnd x kk =>
    rw [← getV_afterByteDraw s VF] at hne
    obtain rfl := eq_VF_of_getV_setV_ne hne
    exact .inr (.inr (.inl ⟨kk, by simp⟩))
  case ldReg x y | orReg x y | andReg x y | xorReg x y =>
    obtain rfl := eq_VF_of_getV_setV_ne hne
    exact .inr (.inr (.inr (.inl ⟨y, by simp⟩)))
  case ldVxDt x =>
    obtain rfl := eq_VF_of_getV_setV_ne hne
    exact .inr (.inr (.inr (.inr (.inl rfl))))
  case loadRegs x =>
    obtain rfl := eq_VF_of_getV_loadFrom_ne hne
    exact .inr (.inr (.inr (.inr (.inr rfl))))
  case seImm | sneImm | seReg | sneReg => exact absurd (getV_skipIf _ s VF) hne
  case skp | sknp => exact absurd ((getV_skipIf _ _ VF).trans (getV_afterKeyQuery _ s VF)) hne
  case ldVxKey => exact absurd (getV_afterKeySample s VF) hne
  all_goals exact absurd rfl hne

/-- Settles O53: a cause keeps PC, and a completion is split over what it does with PC. -/
theorem pcAfterAnInstruction : Obligations.PcAfterAnInstruction := by
  intro i s t h
  rcases exec_cases h with ⟨c, -, rfl⟩ | ⟨hc, rfl⟩
  · exact .inl rfl
  cases i
  case jp nnn => exact .inr (.inr (.inl ⟨nnn, .inl rfl, zextAddr_toNat nnn⟩))
  case call nnn => exact .inr (.inr (.inl ⟨nnn, .inr rfl, zextAddr_toNat nnn⟩))
  case jpV0 nnn => exact .inr (.inr (.inr (.inl ⟨nnn, rfl, indexedTarget_toNat nnn s⟩)))
  case ret =>
    obtain ⟨a, rest, hs⟩ := (popFault_eq_none s).1 hc
    exact .inr (.inr (.inr (.inr ⟨rfl, rest, by simp [execResult, stackTop, hs]⟩)))
  case seImm | sneImm | seReg | sneReg | skp | sknp =>
    simp only [execResult, skipIf_pc, afterKeyQuery_pc]
    split
    · exact .inr (.inl ⟨rfl, by simp⟩)
    · exact .inl rfl
  all_goals exact .inl (by simp [execResult])

/-- Settles O54: MODE becomes Faulted only through `raise`, and the check that found the cause says which instruction
it is. -/
theorem onlySixInstructionsTakeACause : Obligations.OnlySixInstructionsTakeACause := by
  intro i s t c hm h htc
  rcases exec_cases h with ⟨c', hc, rfl⟩ | ⟨-, rfl⟩
  case inr =>
    rcases execResult_mode i s with hmode | hmode
    · exact nomatch hm.symm.trans (hmode.symm.trans htc)
    · exact nomatch hmode.symm.trans htc
  obtain rfl : c' = c := Mode.faulted.inj htc
  refine ⟨raise_takesCause c' s, ?_⟩
  cases i
  case ret =>
    obtain ⟨hc', hs⟩ := (popFault_eq_some s c').1 hc
    exact .inl ⟨rfl, hc', hs⟩
  case call nnn =>
    obtain ⟨hc', d, hd, hl⟩ := (pushFault_eq_some s c').1 hc
    exact .inr (.inl ⟨nnn, d, rfl, hc', hd, hl⟩)
  case ldBVx x =>
    obtain ⟨-, hlt, hc'⟩ := rangeFault_found hc
    exact .inr (.inr (.inl ⟨x, .inl ⟨rfl, by omega⟩, hc'⟩))
  case storeRegs x | loadRegs x =>
    obtain ⟨-, hlt, hc'⟩ := rangeFault_found hc
    exact .inr (.inr (.inl ⟨x, .inr ⟨by simp, by omega⟩, hc'⟩))
  case drw x y n =>
    obtain ⟨h0, hlt, hc'⟩ := rangeFault_found hc
    exact .inr (.inr (.inr ⟨x, y, n, rfl, h0, by omega, hc'⟩))
  all_goals exact nomatch hc

/-- Settles O57: another ST is a graft of fields the instruction does not read; `Fx18` overwrites it. -/
theorem noInstructionReadsTheSoundTimer : Obligations.NoInstructionReadsTheSoundTimer := by
  refine fun i s t b h => ⟨fun hi => ?other, ?ldSt⟩
  case other =>
    rcases exec_withUnreadOf hi { s with st := b } h with ⟨c, rfl, he⟩ | ⟨ht, he⟩
    · exact he
    · rw [ht]; exact he
  case ldSt =>
    rintro ⟨x, rfl⟩
    cases h
    rfl

/-- Settles O58: other outputs are a graft of fields the instruction does not read, and it keeps the fields of the
graft; `Fx18` is one `setSt`. -/
theorem noInstructionReadsTheOutputs : Obligations.NoInstructionReadsTheOutputs := by
  intro i s t b n l h
  by_cases hi : ∀ x, i ≠ .ldStVx x
  · rcases exec_withUnreadOf hi { s with tone := b, presents := n, reports := l } h with ⟨c, rfl, he⟩ | ⟨ht, he⟩
    · exact ⟨rfl, rfl, rfl, he⟩
    · rw [ht]; exact ⟨rfl, rfl, rfl, he⟩
  · obtain ⟨x, rfl⟩ := not_forall_not.1 hi
    cases h
    exact ⟨rfl, rfl, rfl, rfl⟩

end

section
/-! PROOFS. Control transfer with the stack, and the register skips (spec 41_control_flow.md R110, R112, R115, R116). -/

namespace Sys2Proof.Machine

theorem exec_seReg (x y : RegNum) (s : State) : exec (.seReg x y) s = .next (skipIf (getV s x == getV s y) s) := rfl

theorem exec_sneReg (x y : RegNum) (s : State) : exec (.sneReg x y) s = .next (skipIf (getV s x != getV s y) s) := rfl

theorem exec_ret_of_cons {a : Word} {rest : List Word} {s : State} (h : s.stack = a :: rest) :
    exec .ret s = .next (setPc a (setStack rest s)) := by
  rw [exec_of_cause_none (i := .ret) ((popFault_eq_none s).2 ⟨a, rest, h⟩)]
  simp only [execResult, stackTop, popped, h, List.headD_cons, List.tail_cons]

theorem exec_ret_of_nil {s : State} (h : s.stack = []) : exec .ret s = .next (raise .stackUnderflow s) :=
  exec_of_cause_some ((popFault_eq_some s _).2 ⟨rfl, h⟩)

theorem exec_call_of_room {s : State} (nnn : Addr12) (h : ∀ d, s.cfg.stackDepth = some d → s.stack.length < d) :
    exec (.call nnn) s = .next (setPc (zextAddr nnn) (push s.pc s)) :=
  exec_of_cause_none (i := .call nnn) ((pushFault_eq_none s).2 h)

theorem exec_call_of_full {s : State} {d : Nat} (nnn : Addr12) (hd : s.cfg.stackDepth = some d)
    (h : d ≤ s.stack.length) : exec (.call nnn) s = .next (raise .stackOverflow s) :=
  exec_of_cause_some (i := .call nnn) ((pushFault_eq_some s _).2 ⟨rfl, d, hd, h⟩)

theorem onlyPcAndStackChange_setPc_setStack (a : Word) (l : List Word) (s : State) :
    OnlyPcAndStackChange s (setPc a (setStack l s)) :=
  ⟨fun _ => rfl, fun _ => rfl, rfl⟩

end Sys2Proof.Machine

open Sys2Proof Sys2Proof.Machine

/-- Settles O25: the check of the push decides between the jump and the cause. -/
theorem callPushesTheReturnAddress : Obligations.CallPushesTheReturnAddress := by
  refine fun nnn s => ⟨fun h => ?room, fun d hd h => ?full⟩
  case room =>
    exact ⟨_, exec_call_of_room nnn h, zextAddr_toNat nnn, rfl, onlyPcAndStackChange_setPc_setStack _ _ s⟩
  case full => exact ⟨_, exec_call_of_full nnn hd h, raise_takesCause _ s⟩

/-- Settles O26: the check of the pop decides between the return and the cause. -/
theorem returnPopsThePc : Obligations.ReturnPopsThePc := by
  refine fun s => ⟨fun a rest h => ?pop, fun h => ?empty⟩
  case pop => exact ⟨_, exec_ret_of_cons h, rfl, rfl, onlyPcAndStackChange_setPc_setStack a rest s⟩
  case empty => exact ⟨_, exec_ret_of_nil h, raise_takesCause _ s⟩

/-- Settles O27: the call leaves its PC on top of the stack it found, and that is what the return pops. -/
theorem returnResumesAfterTheCall : Obligations.ReturnResumesAfterTheCall := by
  intro nnn s t u hroom hcall hu
  rw [exec_call_of_room nnn hroom] at hcall
  cases hcall
  exact exec_ret_of_cons hu

/-- Settles O29: both skips are one `skipIf`, whose condition is the comparison of Vx with Vy. -/
theorem skipsCompareTwoRegisters : Obligations.SkipsCompareTwoRegisters := by
  refine fun x y s => ⟨?se, ?sne⟩
  case se =>
    exact ⟨_, exec_seReg x y s, fun h => skipIf_pc_of_true (beq_iff_eq.2 h) s,
      fun h => skipIf_pc_of_false (beq_eq_false_iff_ne.2 h) s, onlyPcChanges_skipIf _ s⟩
  case sne =>
    exact ⟨_, exec_sneReg x y s, fun h => skipIf_pc_of_true (bne_iff_ne.2 h) s,
      fun h => skipIf_pc_of_false (bne_eq_false_iff_eq.2 h) s, onlyPcChanges_skipIf _ s⟩

end

section
/-! PROOFS. Arithmetic, logic, shifts and the random byte (spec 42_load_alu.md R130, R134 to R142), the address register
(43_index_memory.md R151, R152) and the timers (45_timers_keys.md R190 to R192). -/

namespace Sys2Proof.Machine

/-! ### The next state of each instruction -/

theorem exec_orReg (x y : RegNum) (s : State) : exec (.orReg x y) s = .next (setV x (getV s x ||| getV s y) s) := rfl

theorem exec_andReg (x y : RegNum) (s : State) : exec (.andReg x y) s = .next (setV x (getV s x &&& getV s y) s) := rfl

theorem exec_xorReg (x y : RegNum) (s : State) : exec (.xorReg x y) s = .next (setV x (getV s x ^^^ getV s y) s) := rfl

theorem exec_addReg (x y : RegNum) (s : State) : exec (.addReg x y) s =
    .next (setResultAndFlag x (getV s x + getV s y) (carryFlag (getV s x) (getV s y)) s) := rfl

theorem exec_subReg (x y : RegNum) (s : State) : exec (.subReg x y) s =
    .next (setResultAndFlag x (getV s x - getV s y) (greaterFlag (getV s x) (getV s y)) s) := rfl

theorem exec_subnReg (x y : RegNum) (s : State) : exec (.subnReg x y) s =
    .next (setResultAndFlag x (getV s y - getV s x) (greaterFlag (getV s y) (getV s x)) s) := rfl

theorem exec_shr (x y : RegNum) (s : State) : exec (.shr x y) s =
    .next (setResultAndFlag x (getV s x >>> 1) (bit0Flag (getV s x)) s) := rfl

theorem exec_shl (x y : RegNum) (s : State) : exec (.shl x y) s =
    .next (setResultAndFlag x (getV s x <<< 1) (bit7Flag (getV s x)) s) := rfl

theorem exec_rnd (x : RegNum) (kk : Byte) (s : State) : exec (.rnd x kk) s =
    .next (setV x (drawnByte s &&& kk) (afterByteDraw s)) := rfl

theorem exec_addIVx (x : RegNum) (s : State) : exec (.addIVx x) s = .next (setI (s.i + zextByte (getV s x)) s) := rfl

theorem exec_ldFVx (x : RegNum) (s : State) : exec (.ldFVx x) s = .next (setI (glyphAddress (getV s x)) s) := rfl

theorem exec_ldVxDt (x : RegNum) (s : State) : exec (.ldVxDt x) s = .next (setV x s.dt s) := rfl

theorem exec_ldDtVx (x : RegNum) (s : State) : exec (.ldDtVx x) s = .next (setDt (getV s x) s) := rfl

theorem exec_ldStVx (x : RegNum) (s : State) : exec (.ldStVx x) s = .next (setSt (getV s x) s) := rfl

/-! ### Results and flags as numbers -/

theorem toNat_sub_byte (a b : Byte) : (a - b).toNat = (a.toNat + 256 - b.toNat) % 256 := by
  have ha := a.isLt
  have hb := b.isLt
  rw [BitVec.toNat_sub]
  omega

theorem toNat_shiftRight_one (a : Byte) : (a >>> 1).toNat = a.toNat / 2 := by
  rw [BitVec.toNat_ushiftRight, Nat.shiftRight_eq_div_pow, pow_one]

theorem toNat_shiftLeft_one (a : Byte) : (a <<< 1).toNat = 2 * a.toNat % 256 := by
  rw [BitVec.toNat_shiftLeft, Nat.shiftLeft_eq, pow_one, Nat.mul_comm]

theorem flagByte_carryFlag (a b : Byte) : flagByte (carryFlag a b) = if 255 < a.toNat + b.toNat then 1 else 0 := by
  simp only [flagByte, carryFlag, decide_eq_true_eq]

theorem flagByte_greaterFlag (a b : Byte) : flagByte (greaterFlag a b) = if b.toNat < a.toNat then 1 else 0 := by
  simp only [flagByte, greaterFlag, decide_eq_true_eq]

theorem flagByte_toNat (f : Bool) : (flagByte f).toNat = f.toNat := by
  cases f <;> rfl

theorem flagByte_bit0Flag_toNat (a : Byte) : (flagByte (bit0Flag a)).toNat = a.toNat % 2 := by
  rw [flagByte_toNat, bit0Flag, BitVec.getLsbD, Nat.toNat_testBit, pow_zero, Nat.div_one]

theorem flagByte_bit7Flag_toNat (a : Byte) : (flagByte (bit7Flag a)).toNat = a.toNat / 128 := by
  have ha := a.isLt
  rw [flagByte_toNat, bit7Flag, BitVec.getLsbD, Nat.toNat_testBit]
  omega

/-- What an instruction leaves that writes the result `r` and then the flag `f`. -/
theorem setResultAndFlag_dest_toNat {x : RegNum} {r : Byte} {n : Nat} (f : Bool) (s : State) (hr : r.toNat = n) :
    x ≠ VF → (getV (setResultAndFlag x r f s) x).toNat = n :=
  fun hx => (congrArg BitVec.toNat (getV_setResultAndFlag_dest s r f hx)).trans hr

theorem drawnByte_of_cons {s : State} {b : Byte} {bs : List Byte} (h : s.env.bytesIn = b :: bs) : drawnByte s = b := by
  unfold drawnByte; rw [h]

theorem drawnByte_of_nil {s : State} (h : s.env.bytesIn = []) : drawnByte s = Config.freeByte s.env.draws := by
  unfold drawnByte; rw [h]

end Sys2Proof.Machine

open Sys2Proof Sys2Proof.Machine

/-- Settles O32: each is one `setV` of a bitwise operation, whose frame leaves VF out unless x = F. -/
theorem logicLeavesTheFlag : Obligations.LogicLeavesTheFlag := by
  refine fun x y s => ⟨⟨_, exec_orReg x y s, fun j => ?or, onlyRegsChange_setV x _ s⟩,
    ⟨_, exec_andReg x y s, fun j => ?and, onlyRegsChange_setV x _ s⟩,
    ⟨_, exec_xorReg x y s, fun j => ?xor, onlyRegsChange_setV x _ s⟩⟩
  case or => rw [getV_setV_same, BitVec.getLsbD_or]
  case and => rw [getV_setV_same, BitVec.getLsbD_and]
  case xor => rw [getV_setV_same, BitVec.getLsbD_xor]

/-- Settles O33: the sum is 8 bits wide, and the carry is written after it. -/
theorem addWritesTheCarry : Obligations.AddWritesTheCarry :=
  fun x y s => ⟨_, exec_addReg x y s, setResultAndFlag_dest_toNat _ s (BitVec.toNat_add _ _),
    (getV_setResultAndFlag_VF s x _ _).trans (flagByte_carryFlag _ _), onlyRegsChange_setResultAndFlag x _ _ s⟩

/-- Settles O34: the difference is 8 bits wide, and the strict comparison is written after it. -/
theorem subtractionsWriteTheStrictComparison : Obligations.SubtractionsWriteTheStrictComparison := by
  refine fun x y s => ⟨?sub, ?subn⟩
  case sub =>
    exact ⟨_, exec_subReg x y s, setResultAndFlag_dest_toNat _ s (toNat_sub_byte _ _),
      (getV_setResultAndFlag_VF s x _ _).trans (flagByte_greaterFlag _ _), onlyRegsChange_setResultAndFlag x _ _ s⟩
  case subn =>
    exact ⟨_, exec_subnReg x y s, setResultAndFlag_dest_toNat _ s (toNat_sub_byte _ _),
      (getV_setResultAndFlag_VF s x _ _).trans (flagByte_greaterFlag _ _), onlyRegsChange_setResultAndFlag x _ _ s⟩

/-- Settles O35: the result and the flag are the quotient and the bit the shift by one takes apart. -/
theorem shiftsWriteTheBitShiftedOut : Obligations.ShiftsWriteTheBitShiftedOut := by
  refine fun x y s => ⟨⟨_, exec_shr x y s, setResultAndFlag_dest_toNat _ s (toNat_shiftRight_one _), ?bit0,
      onlyRegsChange_setResultAndFlag x _ _ s⟩,
    ⟨_, exec_shl x y s, setResultAndFlag_dest_toNat _ s (toNat_shiftLeft_one _), ?bit7,
      onlyRegsChange_setResultAndFlag x _ _ s⟩⟩
  case bit0 => rw [getV_setResultAndFlag_VF, flagByte_bit0Flag_toNat]
  case bit7 => rw [getV_setResultAndFlag_VF, flagByte_bit7Flag_toNat]

/-- Settles O37: one draw, then one `setV` of the masked answer. -/
theorem randomByteIsMasked : Obligations.RandomByteIsMasked := by
  refine fun x kk s => ⟨_, exec_rnd x kk s, getV_setV_same _ x _, fun _ _ => drawnByte_of_cons, drawnByte_of_nil,
    oneByteDrawn_afterByteDraw s, fun r hr => ?regs, readMem_congr (afterByteDraw_mem s), ?rest⟩
  case regs => rw [getV_setV_other _ _ hr, getV_afterByteDraw]
  case rest => rw [afterByteDraw_eq]; rfl

/-- Settles O40: each is one `setI`, of a 16-bit sum and of an address that cannot wrap. -/
theorem addressRegisterArithmetic : Obligations.AddressRegisterArithmetic := by
  refine fun x s => ⟨⟨_, exec_addIVx x s, ?sum, onlyIChanges_setI _ s⟩,
    ⟨_, exec_ldFVx x s, glyphAddress_toNat _, onlyIChanges_setI _ s⟩⟩
  case sum => rw [setI_i, BitVec.toNat_add, zextByte_toNat]

/-- Settles O50: each is one write of one field. -/
theorem timersAreReadAndSet : Obligations.TimersAreReadAndSet :=
  fun x s => ⟨⟨_, exec_ldVxDt x s, getV_setV_same s x _, onlyRegsChange_setV x _ s⟩,
    ⟨_, exec_ldDtVx x s, rfl, fun _ => rfl, fun _ => rfl, rfl⟩,
    ⟨_, exec_ldStVx x s, rfl, fun _ => rfl, fun _ => rfl, rfl⟩⟩

end

section
/-! PROOFS. Memory: the canonical form (spec 20_memory.md), the transfers (43_index_memory.md R153 to R155) and the range
check before every effect (20_memory.md R56). -/

namespace Sys2Proof.Machine

/-! ### A canonical memory is what its reads give -/

theorem Memory.read_eq_zero {m : Memory} {a : Nat} (h : ∀ c ∈ m, a < c.1) : m.read a = 0 := by
  induction m with
  | nil => rfl
  | cons c m ih =>
    have hc : a < c.1 := h c List.mem_cons_self
    rw [Memory.read_cons, if_neg (by omega)]
    exact ih fun d hd => h d (List.mem_cons_of_mem c hd)

theorem Memory.wf_tail {c : Host.Cell} {m : Memory} (h : Memory.wf (c :: m)) : m.wf :=
  ⟨(List.pairwise_cons.1 h.1).2, fun d hd => h.2 d (List.mem_cons_of_mem c hd)⟩

theorem Memory.lt_of_mem_tail {c : Host.Cell} {m : Memory} (h : Memory.wf (c :: m)) : ∀ d ∈ m, c.1 < d.1 :=
  (List.pairwise_cons.1 h.1).1

theorem Memory.head_ne_zero {k : Nat} {b : Byte} {m : Memory} (h : Memory.wf ((k, b) :: m)) : b ≠ 0 :=
  (h.2 (k, b) List.mem_cons_self).2

/-- Below its first address a canonical memory reads as 0, so another that reads alike has no cell there. -/
theorem Memory.head_le_of_read_eq {k l : Nat} {b c : Byte} {m n : Memory} (hm : Memory.wf ((k, b) :: m))
    (hn : Memory.wf ((l, c) :: n)) (h : ∀ a, Memory.read ((k, b) :: m) a = Memory.read ((l, c) :: n) a) : k ≤ l := by
  by_contra hlt
  have hbelow : ∀ d ∈ (k, b) :: m, l < d.1 := by
    intro d hd
    rcases List.mem_cons.1 hd with rfl | hd
    · exact Nat.lt_of_not_le hlt
    · exact (Nat.lt_of_not_le hlt).trans (Memory.lt_of_mem_tail hm d hd)
  have hc : c = 0 := by
    rw [← Memory.read_eq_zero hbelow, h l, Memory.read_cons, if_pos rfl]
  exact Memory.head_ne_zero hn hc

theorem Memory.eq_of_read_eq {m n : Memory} (hm : m.wf) (hn : n.wf) (h : ∀ a, m.read a = n.read a) : m = n := by
  induction m generalizing n with
  | nil =>
    cases n with
    | nil => rfl
    | cons d n => exact absurd (by simpa [Memory.read] using (h d.1).symm) (Memory.head_ne_zero hn)
  | cons c m ih =>
    cases n with
    | nil => exact absurd (by simpa [Memory.read] using h c.1) (Memory.head_ne_zero hm)
    | cons d n =>
      obtain ⟨k, b⟩ := c
      obtain ⟨l, e⟩ := d
      obtain rfl : k = l :=
        Nat.le_antisymm (Memory.head_le_of_read_eq hm hn h) (Memory.head_le_of_read_eq hn hm fun a => (h a).symm)
      obtain rfl : b = e := by simpa [Memory.read_cons] using h k
      rw [ih (Memory.wf_tail hm) (Memory.wf_tail hn)]
      intro a
      by_cases ha : k = a
      · subst ha
        rw [Memory.read_eq_zero (Memory.lt_of_mem_tail hm), Memory.read_eq_zero (Memory.lt_of_mem_tail hn)]
      · simpa [Memory.read_cons, ha] using h a

/-! ### The four checked accesses -/

theorem exec_ldBVx_inside {s : State} (x : RegNum) (h : memBase s + 3 ≤ 4096) :
    exec (.ldBVx x) s = .next (storeBytes (memBase s) (decimalDigits (getV s x)) s) :=
  exec_of_cause_none (i := .ldBVx x) (rangeFault_inside (.inr h))

theorem exec_storeRegs_inside {s : State} {x : RegNum} (h : memBase s + x.val ≤ 4095) :
    exec (.storeRegs x) s = .next (storeBytes (memBase s) (regsUpTo x s) s) :=
  exec_of_cause_none (i := .storeRegs x) (rangeFault_inside (.inr (by omega)))

theorem exec_loadRegs_inside {s : State} {x : RegNum} (h : memBase s + x.val ≤ 4095) :
    exec (.loadRegs x) s = .next { s with v := loadFrom s.mem (memBase s) (x.val + 1) s.v } :=
  exec_of_cause_none (i := .loadRegs x) (rangeFault_inside (.inr (by omega)))

theorem exec_drw_inside {s : State} (x y : RegNum) {n : Nat} (h : n = 0 ∨ memBase s + n ≤ 4096) :
    exec (.drw x y n) s = .next (setFlag (drawSprite x y n s).2 (setFb (drawSprite x y n s).1 s)) :=
  exec_of_cause_none (i := .drw x y n) (rangeFault_inside h)

/-- An instruction whose check is a range check of bytes beyond memory takes the cause. -/
theorem takesCause_of_range_beyond {i : Instr} {s : State} {n : Nat} (hi : execCause i s = rangeFault (memBase s) n)
    (h0 : 0 < n) (h : 4096 < memBase s + n) :
    ∃ t, exec i s = .next t ∧ TakesCause (.addressOutOfRange (max (memBase s) 4096)) s t :=
  ⟨_, exec_of_cause_some (hi.trans (rangeFault_beyond h0 h)), raise_takesCause _ s⟩

/-! ### What a store leaves at its own addresses -/

theorem readMem_storeBytes_at (s : State) (b : Nat) {bs : List Byte} {j : Nat} (h : j < bs.length) :
    readMem (storeBytes b bs s) (b + j) = bs.getD j 0 := by
  rw [readMem_storeBytes, if_pos (by omega), Nat.add_sub_cancel_left]

/-- Every decimal digit of a byte fits a byte. -/
theorem toNat_ofNat_byte_of_le {k : Nat} {v : Byte} (h : k ≤ v.toNat) : (BitVec.ofNat 8 k).toNat = k := by
  have hv := v.isLt
  rw [BitVec.toNat_ofNat]
  omega

end Sys2Proof.Machine

open Sys2Proof Sys2Proof.Machine

/-- Settles O13, by induction on both lists: reads below the first address of a canonical memory are 0, so the first
cells agree. -/
theorem canonicalMemoriesThatReadAlikeAreEqual : Obligations.CanonicalMemoriesThatReadAlikeAreEqual :=
  fun _ _ hm hn h => Memory.eq_of_read_eq hm hn h

/-- Settles O41: the store is one `storeBytes` of the three digits. -/
theorem decimalDigitsAreStored : Obligations.DecimalDigitsAreStored := by
  refine fun x s h => ⟨_, exec_ldBVx_inside x h, ?hundreds, ?tens, ?ones, onlyBytesChange_storeBytes _ _ s⟩
  case hundreds =>
    exact (congrArg BitVec.toNat (readMem_storeBytes_at s _ (j := 0) (by simp))).trans
      (toNat_ofNat_byte_of_le (Nat.div_le_self _ _))
  case tens =>
    exact (congrArg BitVec.toNat (readMem_storeBytes_at s _ (by simp))).trans
      (toNat_ofNat_byte_of_le ((Nat.mod_le _ _).trans (Nat.div_le_self _ _)))
  case ones =>
    exact (congrArg BitVec.toNat (readMem_storeBytes_at s _ (by simp))).trans
      (toNat_ofNat_byte_of_le (Nat.mod_le _ _))

/-- Settles O42: the store is one `storeBytes` of V0 to Vx. -/
theorem registersAreStored : Obligations.RegistersAreStored := by
  refine fun x s h => ⟨_, exec_storeRegs_inside h, fun r hr => ?stored, ?frame⟩
  case stored =>
    have hlt : r.val < (regsUpTo x s).length := by
      rw [length_regsUpTo]
      exact Nat.lt_succ_of_le hr
    rw [readMem_storeBytes_at s _ hlt, getD_regsUpTo x s hr]
  case frame => exact length_regsUpTo x s ▸ onlyBytesChange_storeBytes (memBase s) (regsUpTo x s) s

/-- Settles O43: the load is `loadFrom`, read register by register. -/
theorem registersAreLoaded : Obligations.RegistersAreLoaded := by
  refine fun x s h => ⟨_, exec_loadRegs_inside h, fun r hr => ?loaded, fun r hr => ?kept, fun _ => rfl, rfl⟩
  case loaded => rw [getV_loadFrom, if_pos (Nat.lt_succ_of_le hr)]
  case kept => rw [getV_loadFrom, if_neg (fun hlt => hr (Nat.le_of_lt_succ hlt))]

/-- Settles O44: all four accesses check their whole range first. -/
theorem transfersBeyondMemoryTakeAddressOutOfRange : Obligations.TransfersBeyondMemoryTakeAddressOutOfRange := by
  refine fun x y n s => ⟨fun h => ?digits, fun h => ⟨?store, ?load⟩, fun h0 h => ?sprite⟩
  case digits => exact takesCause_of_range_beyond (i := .ldBVx x) (n := 3) rfl (by omega) (by omega)
  case store => exact takesCause_of_range_beyond (i := .storeRegs x) rfl (Nat.succ_pos _) (by omega)
  case load => exact takesCause_of_range_beyond (i := .loadRegs x) rfl (Nat.succ_pos _) (by omega)
  case sprite => exact takesCause_of_range_beyond (i := .drw x y n) rfl h0 (by omega)

end

section
/-! PROOFS. The display (spec 44_display.md R173, R175, R176) and the flag of every flag writer (10_state.md R22). -/

namespace Sys2Proof.Machine

/-! ### A drawn sprite -/

theorem getV_setFlag_VF (f : Bool) (s : State) : getV (setFlag f s) VF = flagByte f := getV_setV_same s VF _

theorem getV_setFlag_other {r : RegNum} (f : Bool) (s : State) (h : r ≠ VF) : getV (setFlag f s) r = getV s r :=
  getV_setV_other s _ h

theorem getV_VF_cases_of_flagByte {t : State} {f : Bool} (h : getV t VF = flagByte f) :
    getV t VF = 0 ∨ getV t VF = 1 :=
  h ▸ flagByte_cases f

/-- The collision of a sprite that starts from none: some covered cell was ON. -/
theorem drawSprite_collision {x y : RegNum} {n : Nat} {s : State} (hn : n ≤ 15) :
    (drawSprite x y n s).2 = true ↔ ∃ cx cy, SpriteCovers x y n s cx cy ∧ pixel s.fb cx cy = true := by
  rw [(drawSprite_toggled x y n s hn).collision]
  exact or_iff_right Bool.false_ne_true

/-- What a sprite covers depends on Vx, Vy, I and memory alone. -/
theorem spriteCovers_congr {x y : RegNum} {s t : State} (n : Nat) (hx : getV t x = getV s x) (hy : getV t y = getV s y)
    (hi : t.i = s.i) (hm : t.mem = s.mem) : SpriteCovers x y n t = SpriteCovers x y n s := by
  unfold SpriteCovers readMem
  rw [hx, hy, hi, hm]

/-- Flipping the same cells twice restores the framebuffer. -/
theorem Toggled.twice {P : Fin 64 → Fin 32 → Prop} {a b c d : Framebuffer × Bool} (h1 : Toggled P a b)
    (h2 : Toggled P c d) (hc : c.1 = b.1) : d.1 = a.1 := by
  apply fb_ext
  intro cx cy
  by_cases hp : P cx cy
  · rw [h2.flipped cx cy hp, hc, h1.flipped cx cy hp, Bool.not_not]
  · rw [h2.kept cx cy hp, hc, h1.kept cx cy hp]

/-! ### Blocks of equal length in a flattened list -/

theorem length_flatMap_of_const {α β : Type} {f : α → List β} {n : Nat} (l : List α)
    (h : ∀ a, (f a).length = n) : (l.flatMap f).length = l.length * n := by
  simp [List.length_flatMap, h]

/-- Element `d` of block `k`. -/
theorem getElem?_flatMap_of_const {α β : Type} {f : α → List β} {n d : Nat} (l : List α) (k : Nat)
    (h : ∀ a, (f a).length = n) (hd : d < n) : (l.flatMap f)[k * n + d]? = l[k]?.bind fun a => (f a)[d]? := by
  induction l generalizing k with
  | nil => simp
  | cons a l ih =>
    cases k with
    | zero =>
      rw [Nat.zero_mul, Nat.zero_add, List.flatMap_cons, List.getElem?_append_left (by rw [h]; exact hd)]
      rfl
    | succ k =>
      have hk : (k + 1) * n + d - n = k * n + d := by rw [Nat.succ_mul]; omega
      rw [List.flatMap_cons, List.getElem?_append_right (by rw [h, Nat.succ_mul]; omega), h, hk, ih]
      rfl

/-- One row of cells as a row of colours (R173). -/
def renderRow {Colour : Type} (fg bg : Colour) (scale : Nat) (row : Vector Bool 64) : List Colour :=
  row.toList.flatMap fun p => List.replicate scale (if p then fg else bg)

theorem render_eq {Colour : Type} (grid : Framebuffer) (fg bg : Colour) (scale : Nat) :
    render grid fg bg scale = grid.toList.flatMap fun row => List.replicate scale (renderRow fg bg scale row) := rfl

theorem length_renderRow {Colour : Type} (fg bg : Colour) (scale : Nat) (row : Vector Bool 64) :
    (renderRow fg bg scale row).length = 64 * scale := by
  rw [renderRow, length_flatMap_of_const _ fun _ => List.length_replicate, Vector.length_toList]

theorem getElem?_renderRow {Colour : Type} (fg bg : Colour) {scale dx : Nat} (row : Vector Bool 64) (x : Fin 64)
    (h : dx < scale) : (renderRow fg bg scale row)[x.val * scale + dx]? = some (if row[x] then fg else bg) := by
  rw [renderRow, getElem?_flatMap_of_const _ _ (fun _ => List.length_replicate) h]
  simp [h]

theorem length_render {Colour : Type} (grid : Framebuffer) (fg bg : Colour) (scale : Nat) :
    (render grid fg bg scale).length = 32 * scale := by
  rw [render_eq, length_flatMap_of_const _ fun _ => List.length_replicate, Vector.length_toList]

theorem getElem?_render {Colour : Type} (grid : Framebuffer) (fg bg : Colour) {scale dy : Nat} (y : Fin 32)
    (h : dy < scale) : (render grid fg bg scale)[y.val * scale + dy]? = some (renderRow fg bg scale grid[y]) := by
  rw [render_eq, getElem?_flatMap_of_const _ _ (fun _ => List.length_replicate) h]
  simp [h]

end Sys2Proof.Machine

open Sys2Proof Sys2Proof.Machine

/-- Settles O36: every one of the six ends with a flag's byte in VF. -/
theorem flagIsAlwaysZeroOrOne : Obligations.FlagIsAlwaysZeroOrOne := by
  rintro x y n s i (rfl | rfl | rfl | rfl | rfl | ⟨rfl, hn⟩)
  · exact ⟨_, exec_addReg x y s, getV_VF_cases_of_flagByte (getV_setResultAndFlag_VF s x _ _)⟩
  · exact ⟨_, exec_subReg x y s, getV_VF_cases_of_flagByte (getV_setResultAndFlag_VF s x _ _)⟩
  · exact ⟨_, exec_shr x y s, getV_VF_cases_of_flagByte (getV_setResultAndFlag_VF s x _ _)⟩
  · exact ⟨_, exec_subnReg x y s, getV_VF_cases_of_flagByte (getV_setResultAndFlag_VF s x _ _)⟩
  · exact ⟨_, exec_shl x y s, getV_VF_cases_of_flagByte (getV_setResultAndFlag_VF s x _ _)⟩
  · exact ⟨_, exec_drw_inside x y hn, getV_VF_cases_of_flagByte (getV_setFlag_VF _ _)⟩

/-- Settles O47: the completed draw is `drawSprite_toggled`, with its collision as the flag. -/
theorem spriteFlipsTheCellsItCovers : Obligations.SpriteFlipsTheCellsItCovers := by
  intro x y n s hn hin
  have htog := drawSprite_toggled x y n s hn
  refine ⟨_, exec_drw_inside x y hin, htog.flipped, htog.kept, fun hhit => ?hit, fun hmiss => ?miss, ?frame⟩
  case hit =>
    rw [getV_setFlag_VF, flagByte_eq_one]
    exact (drawSprite_collision hn).2 hhit
  case miss =>
    rw [getV_setFlag_VF, flagByte_eq_zero, ← Bool.not_eq_true, drawSprite_collision hn]
    rintro ⟨cx, cy, hc, hon⟩
    exact Bool.false_ne_true ((hmiss cx cy hc).symm.trans hon)
  case frame => exact ⟨fun r hr => getV_setFlag_other _ _ hr, fun _ => rfl, rfl⟩

/-- Settles O48: with x ≠ F and y ≠ F the second draw covers the same cells, and flips each back. -/
theorem spriteDrawnTwiceRestoresTheDisplay : Obligations.SpriteDrawnTwiceRestoresTheDisplay := by
  intro x y n s t hn hin hx hy h
  rw [exec_drw_inside x y hin] at h
  cases h
  have hfirst := drawSprite_toggled x y n s hn
  generalize ht : setFlag (drawSprite x y n s).2 (setFb (drawSprite x y n s).1 s) = t
  have hfb : t.fb = (drawSprite x y n s).1 := ht ▸ rfl
  have hcovers : SpriteCovers x y n t = SpriteCovers x y n s :=
    ht ▸ spriteCovers_congr n (getV_setFlag_other _ _ hx) (getV_setFlag_other _ _ hy) rfl rfl
  have hsecond := drawSprite_toggled x y n t hn
  rw [hcovers] at hsecond
  refine ⟨_, exec_drw_inside x y (ht ▸ hin), hfirst.twice hsecond hfb, ?_⟩
  rw [getV_setFlag_VF, flagByte_eq_one, drawSprite_collision hn, hcovers, hfb]
  refine exists_congr fun cx => exists_congr fun cy => and_congr_right fun hc => ?_
  rw [hfirst.flipped cx cy hc, Bool.not_eq_true']

/-- Settles O49: `render` is rows of equal blocks, and every row is equal blocks of columns. -/
theorem renderFillsABlockPerCell : Obligations.RenderFillsABlockPerCell := by
  refine fun grid fg bg scale =>
    ⟨length_render grid fg bg scale, fun row hrow => ?width, fun x y dx dy hx hy => ?cell⟩
  case width =>
    obtain ⟨r, -, hr⟩ := List.mem_flatMap.1 (render_eq grid fg bg scale ▸ hrow)
    rw [List.eq_of_mem_replicate hr, length_renderRow]
  case cell =>
    rw [getElem?_render grid fg bg y hy, Option.bind_some, getElem?_renderRow fg bg _ x hx]
    rfl

end

section
/-! PROOFS. The keypad (spec 45_timers_keys.md R193 to R196). -/

namespace Sys2Proof.Machine

theorem exec_skp (x : RegNum) (s : State) : exec (.skp x) s =
    .next (skipIf (keyPressed (getV s x).toNat s) (afterKeyQuery (getV s x).toNat s)) := rfl

theorem exec_sknp (x : RegNum) (s : State) : exec (.sknp x) s =
    .next (skipIf (!keyPressed (getV s x).toNat s) (afterKeyQuery (getV s x).toNat s)) := rfl

theorem exec_ldVxKey (x : RegNum) (s : State) : exec (.ldVxKey x) s =
    .next (setMode .waitingForKey (setKeyPrev (sampledKeys s) (setWaitReg x (afterKeySample s)))) := rfl

theorem sampledKeys_of_cons {s : State} {k : KeySet} {ks : List KeySet} (h : s.env.keysIn = k :: ks) :
    sampledKeys s = k := by
  unfold sampledKeys; rw [h]

theorem sampledKeys_of_nil {s : State} (h : s.env.keysIn = []) : sampledKeys s = Config.freeKeys s.env.draws := by
  unfold sampledKeys; rw [h]

theorem keyPressed_of_lt {k : Nat} (h : k < 16) (s : State) : keyPressed k s = (sampledKeys s).getLsbD k := by
  simp [keyPressed, h]

theorem keyPressed_of_gt {k : Nat} (h : 15 < k) (s : State) : keyPressed k s = false := by
  have h' : ¬ k < 16 := by omega
  simp [keyPressed, h']

theorem afterKeyQuery_of_lt {k : Nat} (h : k < 16) (s : State) : afterKeyQuery k s = afterKeySample s := if_pos h

theorem afterKeyQuery_of_gt {k : Nat} (h : 15 < k) (s : State) : afterKeyQuery k s = s :=
  if_neg (by omega)

theorem afterKeyQuery_eq (k : Nat) (s : State) : afterKeyQuery k s = { s with env := (afterKeyQuery k s).env } := by
  unfold afterKeyQuery
  split
  · exact afterKeySample_eq s
  · rfl

/-- A key skip changes nothing but PC and the environment's side. -/
theorem skipIf_afterKeyQuery_eq (c : Bool) (k : Nat) (s : State) :
    skipIf c (afterKeyQuery k s) =
      { s with pc := (skipIf c (afterKeyQuery k s)).pc, env := (skipIf c (afterKeyQuery k s)).env } := by
  rw [afterKeyQuery_eq]
  cases c <;> rfl

theorem readMem_skipIf_afterKeyQuery (c : Bool) (k : Nat) (s : State) (a : Nat) :
    readMem (skipIf c (afterKeyQuery k s)) a = readMem s a :=
  readMem_congr ((skipIf_mem _ c).trans (afterKeyQuery_mem s k)) a

theorem oneSampleTaken_skipIf {s u : State} (c : Bool) (h : OneSampleTaken s u) : OneSampleTaken s (skipIf c u) := by
  cases c <;> exact h

end Sys2Proof.Machine

open Sys2Proof Sys2Proof.Machine

/-- Settles O51: both skips are `skipIf` after one key query, and the query asks for keys below 16 only. -/
theorem keySkipsFollowTheKeyNamedByVx : Obligations.KeySkipsFollowTheKeyNamedByVx := by
  refine fun x s => ⟨_, _, exec_skp x s, exec_sknp x s, fun hlt hdown => ?down, fun hlt hup => ?up, fun hgt => ?noKey,
    fun hlt => ?sampled, fun _ _ => sampledKeys_of_cons, sampledKeys_of_nil, fun r => ?regs,
    fun a => ⟨readMem_skipIf_afterKeyQuery _ _ s a, readMem_skipIf_afterKeyQuery _ _ s a⟩,
    skipIf_afterKeyQuery_eq _ _ s, skipIf_afterKeyQuery_eq _ _ s⟩
  case down => simp [keyPressed_of_lt hlt, hdown]
  case up => simp [keyPressed_of_lt hlt, hup]
  case noKey => simp [keyPressed_of_gt hgt, afterKeyQuery_of_gt hgt]
  case sampled =>
    rw [afterKeyQuery_of_lt hlt]
    exact ⟨oneSampleTaken_skipIf _ (oneSampleTaken_afterKeySample s),
      oneSampleTaken_skipIf _ (oneSampleTaken_afterKeySample s)⟩
  case regs => simp only [getV_skipIf, getV_afterKeyQuery, and_self]

/-- Settles O52: one sample, and then one write each of WAITREG, KEYPREV and MODE. -/
theorem waitForKeyArmsTheWait : Obligations.WaitForKeyArmsTheWait := by
  refine fun x s => ⟨_, exec_ldVxKey x s, rfl, rfl, rfl, oneSampleTaken_afterKeySample s, getV_afterKeySample s,
    readMem_congr (afterKeySample_mem s), ?rest⟩
  case rest => rw [afterKeySample_eq]; rfl

end

section
/-! PROOFS. One step: what it answers, said once as a case per way a step can go, and the statements about the
instruction step (spec 40_fetch_execute_cycle.md R90 to R92) and about what only some steps change. -/

namespace Sys2Proof.Machine

/-! ### Everything a step can do -/

/-- The ways a step from `s` can go, each with its next state. -/
inductive StepAnswers (s : State) : State → Prop
  /-- Between operations, none issued. -/
  | waits (hp : s.env.phase = .idle) (ho : s.env.ops = []) : StepAnswers s s
  /-- Between operations, the oldest one begins. -/
  | begins {op : DriverOp} {rest : List DriverOp} (hp : s.env.phase = .idle) (ho : s.env.ops = op :: rest) :
      StepAnswers s (startOp op (setOps rest s))
  /-- The batch is over, or the machine does not run. -/
  | cycleEnds {n : Nat} (hp : s.env.phase = .batch n) : StepAnswers s (endCycle s)
  /-- The fetch lies beyond memory. -/
  | fetchFaults {n : Nat} {c : Cause} (hp : s.env.phase = .batch (n + 1)) (hm : s.mode = .running) :
      StepAnswers s (raise c s)
  /-- The word fetched is unrecognized. -/
  | reports {n : Nat} {w : Word} (hp : s.env.phase = .batch (n + 1)) (hm : s.mode = .running) :
      StepAnswers s (report s.pc w (advancePc (setPhase (.batch n) s)))
  /-- An instruction runs, with PC advanced. -/
  | runs {n : Nat} {i : Instr} {t : State} (hp : s.env.phase = .batch (n + 1)) (hr : StepRuns s i)
      (he : exec i (advancePc (setPhase (.batch n) s)) = .next t) : StepAnswers s t

theorem stepAnswers_of_step {s t : State} (h : step s = .next t) : StepAnswers s t := by
  rcases step_cases h with ⟨hp, rfl⟩ | ⟨n, hp, -, rfl⟩ | ⟨n, hp, hm, hi⟩
  · cases ho : s.env.ops with
    | nil => rw [driverStep_none ho]; exact .waits hp ho
    | cons op rest => rw [driverStep_cons ho]; exact .begins hp ho
  · exact .cycleEnds hp
  · rcases instrStep_cases hi with ⟨c, -, rfl⟩ | ⟨i, hf, hd, he⟩ | ⟨-, -, rfl⟩
    · exact .fetchFaults hp hm
    · exact .runs hp ⟨⟨n, hp⟩, hm, (fetchFault_eq_none _).1 hf, hd⟩ he
    · exact .reports hp hm

/-! ### What the beginning of an operation leaves -/

@[simp] theorem driverLoad_cfg (p : List Byte) (s : State) : (driverLoad p s).cfg = s.cfg := by
  unfold driverLoad; split <;> simp

@[simp] theorem driverLoad_fb (p : List Byte) (s : State) : (driverLoad p s).fb = s.fb := by
  unfold driverLoad; split <;> simp

@[simp] theorem driverLoad_mode (p : List Byte) (s : State) : (driverLoad p s).mode = s.mode := by
  unfold driverLoad; split <;> simp

@[simp] theorem driverLoad_stack (p : List Byte) (s : State) : (driverLoad p s).stack = s.stack := by
  unfold driverLoad; split <;> simp

@[simp] theorem driverLoad_ops (p : List Byte) (s : State) : (driverLoad p s).env.ops = s.env.ops := by
  unfold driverLoad; split <;> simp

@[simp] theorem driverLoad_phase (p : List Byte) (s : State) : (driverLoad p s).env.phase = s.env.phase := by
  unfold driverLoad; split <;> simp

@[simp] theorem beginCycle_cfg (n : Nat) (s : State) : (beginCycle n s).cfg = s.cfg := by
  unfold beginCycle; split <;> simp

@[simp] theorem beginCycle_fb (n : Nat) (s : State) : (beginCycle n s).fb = s.fb := by
  unfold beginCycle; split <;> simp

@[simp] theorem beginCycle_mem (n : Nat) (s : State) : (beginCycle n s).mem = s.mem := by
  unfold beginCycle; split <;> simp

@[simp] theorem beginCycle_stack (n : Nat) (s : State) : (beginCycle n s).stack = s.stack := by
  unfold beginCycle; split <;> simp

@[simp] theorem beginCycle_ops (n : Nat) (s : State) : (beginCycle n s).env.ops = s.env.ops := by
  unfold beginCycle; split <;> simp

theorem beginCycle_mode_of_faulted {n : Nat} {s : State} {c : Cause} (h : s.mode = .faulted c) :
    (beginCycle n s).mode = .faulted c := by
  rw [beginCycle_faulted n h]; exact h

theorem startOp_cfg (op : DriverOp) (s : State) : (startOp op s).cfg = s.cfg := by
  cases op with
  | reset => rfl
  | loadFont => rfl
  | load p => exact driverLoad_cfg p s
  | cycle n => exact beginCycle_cfg n s

theorem startOp_ops (op : DriverOp) (s : State) : (startOp op s).env.ops = s.env.ops := by
  cases op with
  | reset => rfl
  | loadFont => rfl
  | load p => exact driverLoad_ops p s
  | cycle n => exact beginCycle_ops n s

/-- Inside a cycle the queue of operations waits. -/
theorem step_batch_ops {s t : State} {n : Nat} (hp : s.env.phase = .batch n) (h : step s = .next t) :
    t.env.ops = s.env.ops := by
  cases stepAnswers_of_step h with
  | waits hidle => exact nomatch hp.symm.trans hidle
  | begins hidle => exact nomatch hp.symm.trans hidle
  | cycleEnds => exact endCycle_ops s
  | fetchFaults => rfl
  | reports => rfl
  | runs _ _ he => exact (exec_ops he).trans rfl

theorem startOp_fb {op : DriverOp} (h : op ≠ .reset) (s : State) : (startOp op s).fb = s.fb := by
  cases op with
  | reset => exact absurd rfl h
  | loadFont => rfl
  | load p => exact driverLoad_fb p s
  | cycle n => exact beginCycle_fb n s

theorem startOp_mode_of_faulted {op : DriverOp} {s : State} {c : Cause} (hop : op ≠ .reset) (h : s.mode = .faulted c) :
    (startOp op s).mode = .faulted c := by
  cases op with
  | reset => exact absurd rfl hop
  | loadFont => exact h
  | load p => exact (driverLoad_mode p s).trans h
  | cycle n => exact beginCycle_mode_of_faulted h

end Sys2Proof.Machine

open Sys2Proof Sys2Proof.Machine

/-- Settles O5: the fetch check passes, and the fetched word is the two bytes at PC. -/
theorem stepRunsTheDecodedInstruction : Obligations.StepRunsTheDecodedInstruction := by
  intro s n i hp hm hpc hd
  exact (step_batch_running hp hm).trans
    (instrStep_decoded (s := setPhase (.batch n) s) ((fetchFault_eq_none _).2 hpc) hd)

/-- Settles O6: the fetch check passes, and the word is reported after the advance of PC. -/
theorem unrecognizedWordIsReportedAndSkipped : Obligations.UnrecognizedWordIsReportedAndSkipped := by
  rintro s n w hp hm hpc rfl hd
  exact (step_batch_running hp hm).trans
    (instrStep_unrecognized (s := setPhase (.batch n) s) ((fetchFault_eq_none _).2 hpc) hd)

/-- Settles O7: the fetch check finds the cause, and `raise` takes it in the state before the advance of PC. -/
theorem fetchBeyondMemoryTakesAddressOutOfRange : Obligations.FetchBeyondMemoryTakesAddressOutOfRange := by
  intro s n hp hm hpc
  have hf : fetchFault (setPhase (.batch n) s) = some (.addressOutOfRange (max s.pc.toNat 4096)) :=
    rangeFault_beyond (by omega) (by rw [setPhase_pc]; omega)
  exact ⟨_, (step_batch_running hp hm).trans (instrStep_fault hf), raise_takesCause _ s⟩

/-- Settles O18: a faulted machine runs nothing, and every operation but `Reset` keeps its MODE. -/
theorem onlyResetLeavesFaulted : Obligations.OnlyResetLeavesFaulted := by
  intro s t c hc h hne
  cases stepAnswers_of_step h with
  | waits => exact absurd hc hne
  | @begins op rest hp ho =>
    by_cases hop : op = .reset
    · exact ⟨hp, rest, hop ▸ ho⟩
    · exact absurd (startOp_mode_of_faulted (s := setOps rest s) hop hc) hne
  | cycleEnds => exact absurd ((endCycle_mode s).trans hc) hne
  | fetchFaults _ hm => exact nomatch hm.symm.trans hc
  | reports _ hm => exact nomatch hm.symm.trans hc
  | runs _ hr =>
    obtain ⟨-, hm, -, -⟩ := hr
    exact nomatch hm.symm.trans hc

/-- Settles O55: every other way a step can go keeps the framebuffer. -/
theorem displayChangesOnlyByClsDrwAndReset : Obligations.DisplayChangesOnlyByClsDrwAndReset := by
  intro s t h hne
  cases stepAnswers_of_step h with
  | waits => exact absurd rfl hne
  | @begins op rest hp ho =>
    by_cases hop : op = .reset
    · exact .inl ⟨hp, rest, hop ▸ ho⟩
    · exact absurd (startOp_fb hop _) hne
  | cycleEnds => exact absurd (endCycle_fb s) hne
  | fetchFaults => exact absurd rfl hne
  | reports => exact absurd rfl hne
  | @runs n i _ hp hr he =>
    refine .inr ⟨i, hr, ?_⟩
    by_contra hother
    obtain ⟨hcls, hdrw⟩ := not_or.1 hother
    have hfb := exec_fb he hcls fun x y k hi => hdrw ⟨x, y, k, hi⟩
    exact hne hfb

/-- Settles O56: every other way a step can go keeps memory. -/
theorem memoryChangesOnlyByStoresAndTheDriver : Obligations.MemoryChangesOnlyByStoresAndTheDriver := by
  intro s t a h hne
  cases stepAnswers_of_step h with
  | waits => exact absurd rfl hne
  | @begins op rest hp ho =>
    cases op with
    | reset => exact .inl ⟨hp, rest, ho⟩
    | loadFont => exact .inr (.inl ⟨hp, rest, ho⟩)
    | load p => exact .inr (.inr (.inl ⟨p, hp, rest, ho⟩))
    | cycle n => exact absurd (readMem_congr (beginCycle_mem n _) a) hne
  | cycleEnds => exact absurd (readMem_congr (endCycle_mem s) a) hne
  | fetchFaults => exact absurd rfl hne
  | reports => exact absurd rfl hne
  | @runs n i _ hp hr he =>
    refine .inr (.inr (.inr ⟨i, hr, ?_⟩))
    by_contra hother
    exact hne (readMem_congr (exec_mem he (fun x hi => hother ⟨x, .inl hi⟩) fun x hi => hother ⟨x, .inr hi⟩) a)

/-- Settles O59: no way a step can go writes the parameters. -/
theorem parametersNeverChange : Obligations.ParametersNeverChange := by
  intro s t h
  cases stepAnswers_of_step h with
  | waits => rfl
  | begins => exact startOp_cfg _ _
  | cycleEnds => exact endCycle_cfg s
  | fetchFaults => rfl
  | reports => rfl
  | runs _ _ he => exact (exec_cfg he).trans rfl

/-- Settles O60: `step_batch_ops` inside a cycle, and between operations the one equation of each case. -/
theorem driverActsOnlyBetweenCycles : Obligations.DriverActsOnlyBetweenCycles := by
  refine fun s t h => ⟨fun n hp => step_batch_ops hp h, fun hp ho => ?none, fun op rest hp ho => ?oldest⟩
  case none =>
    rw [step_idle hp, driverStep_none ho] at h
    exact (Host.Outcome.next.inj h).symm
  case oldest =>
    rw [step_op hp ho] at h
    exact Host.Outcome.next.inj h ▸ startOp_ops op (setOps rest s)

end

section
/-! PROOFS. The invariant (spec 10_state.md R20, R27, R33; 40_fetch_execute_cycle.md R101): it reads memory, the stack,
the stack's depth, MODE and the place in a cycle, and every way a step can go keeps it. -/

namespace Sys2Proof.Machine

/-! ### Instructions -/

/-- An instruction keeps the canonical form of memory: the check of a store bounds its addresses. -/
theorem exec_mem_wf {i : Instr} {s t : State} (h : exec i s = .next t) (hwf : s.mem.wf) : t.mem.wf := by
  cases i
  case ldBVx x =>
    rcases exec_cases h with ⟨c, -, rfl⟩ | ⟨hc, rfl⟩
    · exact hwf
    · have hle := ((rangeFault_eq_none _ _).1 hc).resolve_left (by decide)
      exact Memory.wf_writeBytes (length_decimalDigits _ ▸ hle) hwf
  case storeRegs x =>
    rcases exec_cases h with ⟨c, -, rfl⟩ | ⟨hc, rfl⟩
    · exact hwf
    · have hle := ((rangeFault_eq_none _ _).1 hc).resolve_left (Nat.succ_ne_zero _)
      exact Memory.wf_writeBytes (length_regsUpTo x s ▸ hle) hwf
  all_goals exact exec_mem h nofun nofun ▸ hwf

/-- What an instruction does with the stack: nothing, a pop, or a push of PC where there is room. -/
theorem exec_stack_cases {i : Instr} {s t : State} (h : exec i s = .next t) :
    t.stack = s.stack ∨ (∃ a, s.stack = a :: t.stack) ∨
    (t.stack = s.pc :: s.stack ∧ ∀ d, s.cfg.stackDepth = some d → s.stack.length < d) := by
  cases i
  case ret =>
    rcases exec_cases h with ⟨c, -, rfl⟩ | ⟨hc, rfl⟩
    · exact .inl rfl
    · obtain ⟨a, rest, hs⟩ := (popFault_eq_none s).1 hc
      exact .inr (.inl ⟨a, by simp [execResult, popped, hs]⟩)
  case call nnn =>
    rcases exec_cases h with ⟨c, -, rfl⟩ | ⟨hc, rfl⟩
    · exact .inl rfl
    · exact .inr (.inr ⟨rfl, (pushFault_eq_none s).1 hc⟩)
  all_goals exact .inl (exec_stack h nofun nofun)

/-- An instruction of a running machine faults only with the batch closed. -/
theorem exec_halted {i : Instr} {s t : State} (h : exec i s = .next t) (hm : s.mode = .running) {n : Nat}
    (hp : t.env.phase = .batch n) (c : Cause) : t.mode ≠ .faulted c := by
  rcases exec_mode h with ⟨e, rfl⟩ | hmode | hmode
  · exact nomatch hp
  · rw [hmode, hm]; nofun
  · rw [hmode]; nofun

/-- The invariant reads five fields. -/
theorem State.Inv.congr {s t : State} (h : s.Inv) (hmem : t.mem = s.mem) (hstack : t.stack = s.stack)
    (hcfg : t.cfg = s.cfg) (hhalted : ∀ n, t.env.phase = .batch n → ∀ c, t.mode ≠ .faulted c) : t.Inv where
  memory := hmem ▸ h.memory
  depth := hcfg ▸ hstack ▸ h.depth
  returns := hstack ▸ h.returns
  halted := hhalted

/-- An instruction of a running machine keeps the invariant; PC at most 4096 is what a call may push. -/
theorem exec_inv {i : Instr} {s t : State} (h : exec i s = .next t) (hs : s.Inv) (hm : s.mode = .running)
    (hpc : s.pc.toNat ≤ 4096) : t.Inv where
  memory := exec_mem_wf h hs.memory
  depth d hd := by
    have hle := hs.depth d (exec_cfg h ▸ hd)
    rcases exec_stack_cases h with heq | ⟨a, heq⟩ | ⟨heq, hroom⟩
    · rw [heq]; exact hle
    · rw [heq, List.length_cons] at hle; omega
    · rw [heq, List.length_cons]; exact hroom d (exec_cfg h ▸ hd)
  returns a ha := by
    rcases exec_stack_cases h with heq | ⟨b, heq⟩ | ⟨heq, -⟩
    · exact hs.returns a (heq ▸ ha)
    · exact hs.returns a (heq ▸ List.mem_cons_of_mem b ha)
    · rcases List.mem_cons.1 (heq ▸ ha) with rfl | ha'
      · exact hpc
      · exact hs.returns a ha'
  halted _ hp c := exec_halted h hm hp c

/-! ### The driver's operations -/

theorem keyPoll_mode (s : State) : (keyPoll s).mode = .running ∨ (keyPoll s).mode = s.mode := by
  unfold keyPoll
  split
  · exact .inl rfl
  · exact .inr (by simp)

@[simp] theorem keyPoll_phase (s : State) : (keyPoll s).env.phase = s.env.phase := by
  unfold keyPoll; split <;> simp

theorem beginCycle_halted {n m : Nat} {s : State} (hidle : s.env.phase = .idle)
    (hp : (beginCycle n s).env.phase = .batch m) (c : Cause) : (beginCycle n s).mode ≠ .faulted c := by
  cases hm : s.mode with
  | faulted e =>
    rw [beginCycle_faulted n hm, setReply_phase, hidle] at hp
    exact nomatch hp
  | running => rw [beginCycle_running n hm, setPhase_mode, setReply_mode, hm]; nofun
  | waitingForKey =>
    rw [beginCycle_waiting n hm, setPhase_mode]
    rcases keyPoll_mode (setReply none s) with h | h
    · rw [h]; nofun
    · rw [h, setReply_mode, hm]; nofun

theorem driverReset_inv {s : State} (hidle : s.env.phase = .idle) : (driverReset s).Inv where
  memory := wf_reset
  depth _ _ := Nat.zero_le _
  returns _ ha := nomatch ha
  halted _ hp := nomatch hidle.symm.trans hp

theorem driverLoadFont_inv {s : State} (h : s.Inv) : (driverLoadFont s).Inv where
  memory := Memory.wf_writeBytes (by rw [length_font]; decide) h.memory
  depth := h.depth
  returns := h.returns
  halted := h.halted

theorem driverLoad_mem_wf {p : List Byte} {s : State} (h : s.mem.wf) : (driverLoad p s).mem.wf := by
  by_cases hp : p.length ≤ 3584
  · rw [driverLoad_ok s hp]
    refine Memory.wf_writeBytes ?_ h
    show 0x200 + p.length ≤ 4096
    omega
  · rw [driverLoad_error s (Nat.lt_of_not_le hp)]
    exact h

theorem driverLoad_inv {s : State} (p : List Byte) (h : s.Inv) : (driverLoad p s).Inv where
  memory := driverLoad_mem_wf h.memory
  depth := by rw [driverLoad_cfg, driverLoad_stack]; exact h.depth
  returns := by rw [driverLoad_stack]; exact h.returns
  halted := by rw [driverLoad_phase, driverLoad_mode]; exact h.halted

theorem startOp_inv {s : State} (op : DriverOp) (h : s.Inv) (hidle : s.env.phase = .idle) : (startOp op s).Inv := by
  cases op with
  | reset => exact driverReset_inv hidle
  | loadFont => exact driverLoadFont_inv h
  | load p => exact driverLoad_inv p h
  | cycle n =>
    exact h.congr (beginCycle_mem n s) (beginCycle_stack n s) (beginCycle_cfg n s) fun _ => beginCycle_halted hidle

/-- The state an instruction sees has the invariant, and its PC is at most 4096: the fetch was inside memory. -/
theorem fetched_inv {s : State} (n : Nat) (h : s.Inv) (hm : s.mode = .running) :
    (advancePc (setPhase (.batch n) s)).Inv :=
  h.congr rfl rfl rfl fun _ _ _ hc => (nomatch hm.symm.trans hc)

theorem advancePc_le {s : State} (h : s.pc.toNat + 2 ≤ 4096) : (advancePc s).pc.toNat ≤ 4096 := by
  show (s.pc + 2).toNat ≤ 4096
  rw [BitVec.toNat_add]
  exact (Nat.mod_le _ _).trans h

theorem step_inv {s t : State} (hs : s.Inv) (h : step s = .next t) : t.Inv := by
  cases stepAnswers_of_step h with
  | waits => exact hs
  | begins hp => exact startOp_inv _ (hs.congr rfl rfl rfl hs.halted) hp
  | cycleEnds =>
    exact hs.congr (endCycle_mem s) (endCycle_stack s) (endCycle_cfg s)
      fun _ hp => (nomatch (endCycle_phase s).symm.trans hp)
  | fetchFaults => exact hs.congr rfl rfl rfl fun _ hp => (nomatch hp)
  | @reports n w _ hm => exact (fetched_inv n hs hm).congr rfl rfl rfl fun _ _ _ hc => (nomatch hm.symm.trans hc)
  | runs _ hr he =>
    obtain ⟨-, hm, hpc, -⟩ := hr
    exact exec_inv he (fetched_inv _ hs hm) hm (advancePc_le hpc)

end Sys2Proof.Machine

open Sys2Proof Sys2Proof.Machine

/-- Settles O10: `step_inv`, by the ways a step can go. -/
theorem everyStepKeepsTheInvariant : Obligations.EveryStepKeepsTheInvariant := fun _ _ hs h => step_inv hs h

/-- Settles O11: the reset state is what `Reset` leaves of itself. -/
theorem resetHasTheInvariant : Obligations.ResetHasTheInvariant := driverReset_inv (s := State.reset) rfl

/-- Settles O12: the fields are the literals of the reset state; a register and a cell are read from constant vectors. -/
theorem resetGivesTheValuesOfTheTable : Obligations.ResetGivesTheValuesOfTheTable :=
  ⟨rfl, rfl, fun r => Vector.getElem_replicate r.isLt, rfl, rfl, rfl, rfl, fun _ => rfl, pixel_clearFb, rfl, rfl, rfl,
    rfl, rfl⟩

end

section
/-! PROOFS. The phases of a cycle (spec 40_fetch_execute_cycle.md R94 to R101): its beginning, the key poll, its end, and
the small steps against `cycle`. -/

namespace Sys2Proof.Machine

/-! ### The beginning -/

theorem step_cycle {s : State} {n : Nat} {rest : List DriverOp} (hp : s.env.phase = .idle)
    (ho : s.env.ops = .cycle n :: rest) : step s = .next (beginCycle n (setOps rest s)) :=
  step_op hp ho

/-! ### The key poll -/

theorem newlyPressed_getLsbD (sample prev : KeySet) (j : Nat) :
    (newlyPressed sample prev).getLsbD j = (sample.getLsbD j && !prev.getLsbD j) := by
  by_cases hj : j < 16
  · simp [newlyPressed, hj]
  · simp [newlyPressed, BitVec.getLsbD_of_ge sample j (by omega)]

theorem lowestKey_newlyPressed_of_lowest {sample prev : KeySet} {k : Fin 16} (hdown : sample.getLsbD k = true)
    (hup : prev.getLsbD k = false) (hlow : ∀ j < k, sample.getLsbD j = true → prev.getLsbD j = true) :
    lowestKey (newlyPressed sample prev) = some k.val := by
  refine (lowestKey_eq_some _ _).2 ⟨?_, k.isLt, fun j hj => ?_⟩
  · rw [newlyPressed_getLsbD, hdown, hup]; rfl
  · have hlow' := hlow ⟨j, hj.trans k.isLt⟩ hj
    rw [newlyPressed_getLsbD]
    cases hs : sample.getLsbD j with
    | false => rfl
    | true => rw [hlow' hs]; rfl

theorem lowestKey_newlyPressed_of_none {sample prev : KeySet}
    (h : ∀ k : Fin 16, sample.getLsbD k = true → prev.getLsbD k = true) :
    lowestKey (newlyPressed sample prev) = none := by
  refine (lowestKey_eq_none _).2 fun j hj => ?_
  rw [newlyPressed_getLsbD]
  cases hs : sample.getLsbD j with
  | false => rfl
  | true => rw [h ⟨j, hj⟩ hs]; rfl

theorem keyPoll_of_some {s : State} {k : Nat} (h : lowestKey (newlyPressed (sampledKeys s) s.keyPrev) = some k) :
    keyPoll s = setMode .running (setV s.waitReg (BitVec.ofNat 8 k) (afterKeySample s)) := by
  unfold keyPoll; rw [h]

theorem keyPoll_of_none {s : State} (h : lowestKey (newlyPressed (sampledKeys s) s.keyPrev) = none) :
    keyPoll s = setKeyPrev (sampledKeys s) (afterKeySample s) := by
  unfold keyPoll; rw [h]

theorem afterKeySample_setOps (l : List DriverOp) (s : State) :
    afterKeySample (setOps l s) = setOps l (afterKeySample s) := by
  cases h : s.env.keysIn with
  | nil => rw [afterKeySample_nil h, afterKeySample_nil (s := setOps l s) h]; rfl
  | cons k ks => rw [afterKeySample_cons h, afterKeySample_cons (s := setOps l s) h]; rfl

theorem afterKeySample_setReply (r : Option Reply) (s : State) :
    afterKeySample (setReply r s) = setReply r (afterKeySample s) := by
  cases h : s.env.keysIn with
  | nil => rw [afterKeySample_nil h, afterKeySample_nil (s := setReply r s) h]; rfl
  | cons k ks => rw [afterKeySample_cons h, afterKeySample_cons (s := setReply r s) h]; rfl

/-- A poll writes one register, MODE, KEYPREV and the environment's side. -/
theorem keyPoll_eq (s : State) : keyPoll s =
    { s with v := (keyPoll s).v, mode := (keyPoll s).mode, keyPrev := (keyPoll s).keyPrev,
             env := (afterKeySample s).env } := by
  cases h : lowestKey (newlyPressed (sampledKeys s) s.keyPrev) with
  | some k => rw [keyPoll_of_some h, afterKeySample_eq]; rfl
  | none => rw [keyPoll_of_none h, afterKeySample_eq]; rfl

/-! ### The end -/

theorem endCycle_dt_toNat {s : State} (h : ∀ c, s.mode ≠ .faulted c) : (endCycle s).dt.toNat = s.dt.toNat - 1 := by
  rw [endCycle_alive h]; exact countDown_toNat s.dt

theorem endCycle_st_toNat {s : State} (h : ∀ c, s.mode ≠ .faulted c) : (endCycle s).st.toNat = s.st.toNat - 1 := by
  rw [endCycle_alive h]; exact countDown_toNat s.st

theorem endCycle_tone {s : State} (h : ∀ c, s.mode ≠ .faulted c) :
    (endCycle s).tone = true ↔ 0 < (endCycle s).st.toNat := by
  rw [endCycle_alive h]; exact decide_eq_true_iff

theorem endCycle_presents {s : State} (h : ∀ c, s.mode ≠ .faulted c) : (endCycle s).presents = s.presents + 1 := by
  rw [endCycle_alive h]; rfl

/-- The end of a cycle alive writes the timers, TONE, PRESENTS and the environment's side. -/
theorem endCycle_eq {s : State} (h : ∀ c, s.mode ≠ .faulted c) : endCycle s =
    { s with dt := (endCycle s).dt, st := (endCycle s).st, tone := (endCycle s).tone, presents := s.presents + 1,
             env := { s.env with phase := .idle, reply := some .ok, lastFrame := some s.fb } } := by
  rw [endCycle_alive h]; rfl

/-- The end of a cycle closes the batch, so where the batch stood leaves no trace. -/
theorem endCycle_setPhase (p : Phase) (s : State) : endCycle (setPhase p s) = endCycle s := by
  cases hm : s.mode with
  | faulted c => rw [endCycle_faulted hm, endCycle_faulted (s := setPhase p s) hm]; rfl
  | running | waitingForKey =>
    have halive : ∀ c, s.mode ≠ .faulted c := by rw [hm]; nofun
    exact (endCycle_alive (s := setPhase p s) halive).trans (endCycle_alive halive).symm

/-- A fatal cause already ended the cycle and answered it. -/
theorem endCycle_raise (c : Cause) (s : State) : endCycle (raise c s) = raise c s := by
  rw [endCycle_faulted (raise_mode s c)]; rfl

/-! ### An instruction, wherever the batch stands -/

theorem execResult_phase (i : Instr) (s : State) : (execResult i s).env.phase = s.env.phase := by
  cases i <;> simp [execResult]

theorem execCause_setPhase (i : Instr) (p : Phase) (s : State) : execCause i (setPhase p s) = execCause i s :=
  execCause_withUnreadOf i (setPhase p s) s

theorem execResult_setPhase (i : Instr) (p : Phase) (s : State) :
    execResult i (setPhase p s) = setPhase p (execResult i s) := by
  by_cases hi : ∀ x, i ≠ .ldStVx x
  · calc execResult i (setPhase p s)
        = withUnreadOf (setPhase p s) (execResult i s) := execResult_withUnreadOf hi (setPhase p s) s
      _ = setPhase p (withUnreadOf s (execResult i s)) := rfl
      _ = setPhase p (execResult i s) := by rw [withUnreadOf_execResult hi]
  · obtain ⟨x, rfl⟩ := not_forall_not.1 hi
    rfl

/-- The two ways an instruction step of a running machine goes in two states that differ in the phase alone: both take
the same cause, or both complete and still differ in the phase alone. -/
theorem instrStep_setPhase {s t : State} (p : Phase) (hm : s.mode = .running) (h : instrStep s = .next t) :
    (∃ c u, t = raise c u ∧ instrStep (setPhase p s) = .next t) ∨
    (t.env.phase = s.env.phase ∧ (∀ c, t.mode ≠ .faulted c) ∧
      instrStep (setPhase p s) = .next (setPhase p t)) := by
  rcases instrStep_cases h with ⟨c, hf, rfl⟩ | ⟨i, hf, hd, he⟩ | ⟨hf, hd, rfl⟩
  · exact .inl ⟨c, s, rfl, instrStep_fault (s := setPhase p s) hf⟩
  · have hstep : instrStep (setPhase p s) = exec i (setPhase p (advancePc s)) :=
      instrStep_decoded (s := setPhase p s) hf hd
    rcases exec_cases he with ⟨c, hc, rfl⟩ | ⟨hc, rfl⟩
    · exact .inl ⟨c, _, rfl, hstep.trans (exec_of_cause_some ((execCause_setPhase i p _).trans hc))⟩
    · refine .inr ⟨execResult_phase i _, fun c hfault => ?_, ?_⟩
      · rcases execResult_mode i (advancePc s) with hmode | hmode
        · exact nomatch hm.symm.trans (hmode.symm.trans hfault)
        · exact nomatch hmode.symm.trans hfault
      · rw [hstep, exec_of_cause_none ((execCause_setPhase i p _).trans hc), execResult_setPhase]
  · exact .inr ⟨rfl, fun _ hfault => (nomatch hm.symm.trans hfault),
      instrStep_unrecognized (s := setPhase p s) hf hd⟩

/-! ### The batch -/

theorem runBatch_of_not_running {s : State} (n : Nat) (h : s.mode ≠ .running) : runBatch n s = .next s := by
  cases n with
  | zero => rfl
  | succ n =>
    unfold runBatch
    split
    · next hm => exact absurd hm h
    · rfl
    · rfl

theorem runBatch_succ_running {s : State} (n : Nat) (h : s.mode = .running) :
    runBatch (n + 1) s = andThen (instrStep s) (runBatch n) := by
  rw [runBatch, h]

/-- The batch and the end of the cycle, as `cycle` composes them. -/
def batchThenEnd (n : Nat) (s : State) : Outcome := andThen (runBatch n s) fun t => .next (endCycle t)

theorem batchThenEnd_of_not_running {s : State} (n : Nat) (h : s.mode ≠ .running) :
    batchThenEnd n s = .next (endCycle s) := by
  rw [batchThenEnd, runBatch_of_not_running n h]; rfl

theorem batchThenEnd_succ {s t : State} (n : Nat) (hm : s.mode = .running) (h : instrStep s = .next t) :
    batchThenEnd (n + 1) s = batchThenEnd n t := by
  rw [batchThenEnd, runBatch_succ_running n hm, h]; rfl

theorem run_one_batchEnd {s : State} {n : Nat}
    (h : step (setPhase (.batch n) s) = .next (endCycle (setPhase (.batch n) s))) :
    Sys2Proof.core.run 1 (setPhase (.batch n) s) = .next (endCycle s) := by
  rw [run_succ 0 h, endCycle_setPhase, run_zero]

/-- At most `n + 1` small steps take a batch of `n` instructions and end the cycle. -/
theorem run_batch (n : Nat) {s : State} (hidle : s.env.phase = .idle) (halive : ∀ c, s.mode ≠ .faulted c) :
    ∃ k, k ≤ n + 1 ∧ Sys2Proof.core.run k (setPhase (.batch n) s) = batchThenEnd n s := by
  induction n generalizing s with
  | zero => exact ⟨1, le_rfl, run_one_batchEnd (step_batch_over rfl)⟩
  | succ n ih =>
    by_cases hm : s.mode = .running
    case neg =>
      rw [batchThenEnd_of_not_running _ hm]
      exact ⟨1, by omega, run_one_batchEnd (step_batch_stopped rfl hm)⟩
    obtain ⟨t, ht⟩ := exists_instrStep_eq_next s
    have hstep : step (setPhase (.batch (n + 1)) s) = instrStep (setPhase (.batch n) s) := step_batch_running rfl hm
    rw [batchThenEnd_succ n hm ht]
    rcases instrStep_setPhase (.batch n) hm ht with ⟨c, u, rfl, he⟩ | ⟨hphase, halive', he⟩
    · rw [batchThenEnd_of_not_running n (by rw [raise_mode]; nofun), endCycle_raise]
      exact ⟨1, by omega, run_succ 0 (hstep.trans he)⟩
    · obtain ⟨k, hk, hrun⟩ := ih (hphase.trans hidle) halive'
      exact ⟨k + 1, by omega, (run_succ k (hstep.trans he)).trans hrun⟩

theorem run_cycle_of_begins {s u : State} {n : Nat} (h : step s = .next (setPhase (.batch n) u))
    (hidle : u.env.phase = .idle) (halive : ∀ c, u.mode ≠ .faulted c) :
    ∃ k, k ≤ n + 2 ∧ Sys2Proof.core.run k s = batchThenEnd n u := by
  obtain ⟨k, hk, hrun⟩ := run_batch n hidle halive
  exact ⟨k + 1, by omega, by rw [run_succ k h, hrun]⟩

theorem cycle_faulted {s : State} {c : Cause} (n : Nat) (h : s.mode = .faulted c) :
    cycle n s = .next (setReply (some (.fatal c)) s) := by
  rw [cycle, h]

theorem cycle_running {s : State} (n : Nat) (h : s.mode = .running) : cycle n s = batchThenEnd n (setReply none s) := by
  rw [cycle, h]; rfl

theorem cycle_waiting {s : State} (n : Nat) (h : s.mode = .waitingForKey) :
    cycle n s = batchThenEnd n (keyPoll (setReply none s)) := by
  rw [cycle, h]; rfl

/-! ### Empty cycles -/

/-- One `Cycle(0)` of a running machine is two steps: the beginning, and the end. -/
theorem run_emptyCycle {s : State} {rest : List DriverOp} (k : Nat) (hp : s.env.phase = .idle)
    (hm : s.mode = .running) (ho : s.env.ops = .cycle 0 :: rest) :
    Sys2Proof.core.run (k + 2) s = Sys2Proof.core.run k (endCycle (setReply none (setOps rest s))) := by
  have hbegin : step s = .next (setPhase (.batch 0) (setReply none (setOps rest s))) :=
    (step_cycle hp ho).trans (congrArg _ (beginCycle_running 0 (s := setOps rest s) hm))
  rw [run_succ (k + 1) hbegin, run_succ k (step_batch_over rfl), endCycle_setPhase]

end Sys2Proof.Machine

open Sys2Proof Sys2Proof.Machine

/-- Settles O14: in both cases the step is `endCycle` of a machine that is alive. -/
theorem cycleEndTicksSoundsAndPresents : Obligations.CycleEndTicksSoundsAndPresents := by
  intro s n hp hwhy
  have hstep : step s = .next (endCycle s) := by
    rcases hwhy with ⟨rfl, -⟩ | hm
    · exact step_batch_over hp
    · exact step_batch_stopped hp (by rw [hm]; nofun)
  have halive : ∀ c, s.mode ≠ .faulted c := by
    rcases hwhy with ⟨-, hm⟩ | hm
    · rw [hm]; nofun
    · rw [hm]; nofun
  exact ⟨_, hstep, endCycle_dt_toNat halive, endCycle_st_toNat halive, endCycle_tone halive, endCycle_eq halive⟩

/-- Settles O15: the beginning of a cycle in Running only opens the batch. -/
theorem cycleBeginsItsBatch : Obligations.CycleBeginsItsBatch := by
  intro s n rest hp ho hm
  exact (step_cycle hp ho).trans (congrArg _ (beginCycle_running n (s := setOps rest s) hm))

/-- Settles O16: the poll's one sample is the one the statement names, and its lowest new key decides. -/
theorem keyPollCapturesTheLowestNewKey : Obligations.KeyPollCapturesTheLowestNewKey := by
  intro s n rest hp ho hm
  have hstep := (step_cycle hp ho).trans (congrArg _ (beginCycle_waiting n (s := setOps rest s) hm))
  refine ⟨_, hstep, fun k hdown hup hlow => ?captured, fun hheld => ?waitsOn, ?frame⟩
  case captured =>
    rw [keyPoll_of_some (s := setReply none (setOps rest s)) (lowestKey_newlyPressed_of_lowest hdown hup hlow)]
    refine ⟨fun r => (getV_setV _ s.waitReg r _).trans ?_, rfl, by simp⟩
    rw [getV_afterKeySample]
    rfl
  case waitsOn =>
    rw [keyPoll_of_none (s := setReply none (setOps rest s)) (lowestKey_newlyPressed_of_none hheld)]
    exact ⟨getV_afterKeySample _, by simp [hm], rfl⟩
  case frame =>
    rw [keyPoll_eq, afterKeySample_setReply, afterKeySample_setOps]
    rfl

/-- Settles O17: the beginning of a cycle in Faulted only hands the cause back. -/
theorem faultedMachineIgnoresACycle : Obligations.FaultedMachineIgnoresACycle := by
  intro s n rest c hp ho hm
  exact (step_cycle hp ho).trans (congrArg _ (beginCycle_faulted n (s := setOps rest s) hm))

/-- Settles O9: a Faulted machine takes one step, and any other opens the batch and then follows `run_batch`. -/
theorem smallStepsComputeTheCycle : Obligations.SmallStepsComputeTheCycle := by
  intro s n rest hp ho
  have hstep := step_cycle hp ho
  generalize hu : setOps rest s = u at hstep
  have hidle : u.env.phase = .idle := hu ▸ hp
  have hcycle : cycle n { s with env := { s.env with ops := rest } } = cycle n u := congrArg _ hu
  rw [hcycle]
  cases hm : u.mode with
  | faulted c =>
    rw [beginCycle_faulted n hm] at hstep
    rw [cycle_faulted n hm]
    exact ⟨1, by omega, run_succ 0 hstep⟩
  | running =>
    rw [beginCycle_running n hm] at hstep
    rw [cycle_running n hm]
    exact run_cycle_of_begins hstep hidle (by rw [setReply_mode, hm]; nofun)
  | waitingForKey =>
    rw [beginCycle_waiting n hm] at hstep
    rw [cycle_waiting n hm]
    refine run_cycle_of_begins hstep ((keyPoll_phase _).trans hidle) fun c hfault => ?_
    rcases keyPoll_mode (setReply none u) with h | h
    · exact nomatch h.symm.trans hfault
    · exact nomatch hm.symm.trans (h.symm.trans hfault)

/-- Settles O19, by induction on k: one empty cycle is `run_emptyCycle`. -/
theorem emptyCyclesCountTheTimersDown : Obligations.EmptyCyclesCountTheTimersDown := by
  intro k
  induction k with
  | zero =>
    intro s rest hp hm ho
    exact ⟨s, rfl, rfl, rfl, rfl, rfl, hm, hp, ho, fun _ => rfl, fun _ => rfl⟩
  | succ k ih =>
    intro s rest hp hm ho
    let u := setReply none (setOps (List.replicate k (.cycle 0) ++ rest) s)
    have halive : ∀ c, u.mode ≠ .faulted c := by
      show ∀ c, s.mode ≠ .faulted c
      rw [hm]
      nofun
    obtain ⟨t, ht, hdt, hst, hpresents, hpc, hmode, hphase, hops, hregs, hmem⟩ :=
      ih (endCycle u) rest (endCycle_phase u) ((endCycle_mode u).trans hm) (endCycle_ops u)
    refine ⟨t, (run_emptyCycle (2 * k) hp hm ho).trans ht, ?dt, ?st, ?presents, hpc.trans (endCycle_pc u), hmode,
      hphase, hops, fun r => (hregs r).trans (getV_congr (endCycle_v u) r),
      fun a => (hmem a).trans (readMem_congr (endCycle_mem u) a)⟩
    case dt => rw [hdt, endCycle_dt_toNat halive, Nat.sub_sub, Nat.add_comm]; rfl
    case st => rw [hst, endCycle_st_toNat halive, Nat.sub_sub, Nat.add_comm]; rfl
    case presents => rw [hpresents, endCycle_presents halive, Nat.add_assoc, Nat.add_comm 1]; rfl

end

section
/-! PROOFS. The driver's operations (spec 70_reset_and_hazards.md R240 to R243). -/

namespace Sys2Proof.Machine

/-! ### Memory after the operations -/

theorem readMem_driverLoadFont (s : State) (a : Nat) :
    readMem (driverLoadFont s) a = if a < 0x50 then s.cfg.font.getD a 0 else readMem s a := by
  refine (readMem_storeBytes s 0 s.cfg.font a).trans ?_
  simp only [length_font, Nat.zero_le, Nat.zero_add, true_and, Nat.sub_zero]

theorem readMem_driverLoad {p : List Byte} {s : State} (h : p.length ≤ 3584) (a : Nat) :
    readMem (driverLoad p s) a =
      if 0x200 ≤ a ∧ a < 0x200 + p.length then p.getD (a - 0x200) 0 else readMem s a := by
  rw [driverLoad_ok s h]
  exact readMem_storeBytes s 0x200 p a

/-- `Reset` and two operations that stay between operations are three steps. -/
theorem run_reset_then_two {s : State} {op op' : DriverOp} {rest : List DriverOp} (hp : s.env.phase = .idle)
    (ho : s.env.ops = .reset :: op :: op' :: rest)
    (hop : (startOp op (setOps (op' :: rest) (driverReset (setOps (op :: op' :: rest) s)))).env.phase = .idle) :
    Sys2Proof.core.run 3 s = .next (startOp op' (setOps rest
      (startOp op (setOps (op' :: rest) (driverReset (setOps (op :: op' :: rest) s)))))) := by
  have hreset : step s = .next (driverReset (setOps (op :: op' :: rest) s)) := step_op hp ho
  rw [run_succ 2 hreset, run_succ 1 (step_op (s := driverReset (setOps (op :: op' :: rest) s)) hp rfl),
    run_succ 0 (step_op hop (startOp_ops op _)), run_zero]

/-! ### The font, glyph by glyph -/

theorem getD_font_glyphZero (c : Config) {r : Nat} (h : r < 5) : c.font.getD r 0 = glyphZero.toList.getD r 0 :=
  List.getD_append _ _ _ _ h

theorem getD_font_glyph (c : Config) (d : Fin 15) (r : Fin 5) :
    c.font.getD (5 * (d.val + 1) + r.val) 0 = c.glyphs[d][r] := by
  have hlen : ∀ g : Glyph, g.toList.length = 5 := fun g => g.length_toList
  have hpast : 5 * (d.val + 1) + r.val - glyphZero.toList.length = d.val * 5 + r.val := by rw [hlen]; omega
  rw [Config.font, List.getD_append_right _ _ _ _ (by rw [hlen]; omega), hpast, List.getD_eq_getElem?_getD,
    getElem?_flatMap_of_const _ _ hlen r.isLt]
  simp

end Sys2Proof.Machine

open Sys2Proof Sys2Proof.Machine

/-- Settles O20: the step begins `Reset`. -/
theorem resetOperationRestoresTheResetState : Obligations.ResetOperationRestoresTheResetState :=
  fun _ _ hp ho => step_op hp ho

/-- Settles O21: the step begins `Load`, whose length check decides. -/
theorem loadStoresTheProgramOrAnswersLoadError : Obligations.LoadStoresTheProgramOrAnswersLoadError := by
  refine fun s p rest hp ho =>
    ⟨fun hlen => ⟨_, step_op hp ho, ?pc, readMem_driverLoad hlen, ?frame⟩, fun hlen => ?error⟩
  case pc =>
    rw [startOp, driverLoad_ok _ hlen]
    rfl
  case frame =>
    rw [startOp, driverLoad_ok _ hlen]
    rfl
  case error => exact (step_op hp ho).trans (congrArg _ (driverLoad_error _ hlen))

/-- Settles O22: the step begins `LoadFont`, one store of the font's 80 bytes. -/
theorem loadFontWritesTheGlyphs : Obligations.LoadFontWritesTheGlyphs := by
  intro s rest hp ho
  have hread : ∀ a, readMem (driverLoadFont (setOps rest s)) a =
      if a < 0x50 then s.cfg.font.getD a 0 else readMem s a :=
    readMem_driverLoadFont (setOps rest s)
  have hzero : ∀ r, r < 5 → readMem (driverLoadFont (setOps rest s)) r = glyphZero.toList.getD r 0 :=
    fun r hr => by rw [hread, if_pos (by omega), getD_font_glyphZero s.cfg hr]
  refine ⟨_, step_op hp ho, hzero 0 (by decide), hzero 1 (by decide), hzero 2 (by decide), hzero 3 (by decide),
    hzero 4 (by decide), fun d r => ?glyph, fun a ha => ?above, rfl⟩
  case glyph => exact (hread _).trans ((if_pos (by omega)).trans (getD_font_glyph s.cfg d r))
  case above => exact (hread a).trans (if_neg (by omega))

/-- Settles O23: three steps begin the three operations, and font and program lie apart, so the order of their stores
does not show. -/
theorem bootLaysOutMemory : Obligations.BootLaysOutMemory := by
  rintro s p rest hp hlen (ho | ho)
  case inl =>
    refine ⟨_, run_reset_then_two (rest := rest) hp ho hp, fun a => (readMem_driverLoad hlen a).trans ?_, ?frame⟩
    case frame =>
      simp only [startOp, driverLoad_ok _ hlen]
      rfl
    rw [readMem_congr (setOps_mem _ rest) a, startOp, readMem_driverLoadFont]
    by_cases hfont : a < 0x50
    · rw [if_neg (by omega), if_pos hfont, if_pos hfont]
      rfl
    · rw [if_neg hfont, if_neg hfont]
      rfl
  case inr =>
    refine ⟨_, run_reset_then_two (rest := rest) hp ho ((driverLoad_phase p _).trans hp),
      fun a => (readMem_driverLoadFont _ a).trans ?_, ?frame⟩
    case frame =>
      simp only [startOp, driverLoad_ok _ hlen]
      rfl
    rw [readMem_congr (setOps_mem _ rest) a, startOp, readMem_driverLoad hlen, setOps_cfg, driverLoad_cfg]
    rfl

end
